-- ==== Sys2Proof/Word.lean ====
section
/-!
DEFINITION. The word types of the GW-1 (spec 00 R2, 01 R7): what the manual treats as bits is a bit vector.
Everything the manual counts, numbers or indexes is a Nat (register numbers, offsets, coordinates, times).
-/
namespace Sys2Proof

abbrev Byte := BitVec 8
abbrev Word32 := BitVec 32
abbrev Word64 := BitVec 64
/-- One tile's share of a vector register (01 R7). -/
abbrev VWord := BitVec 512

end Sys2Proof
end

