-- ==== Sys2Proof/Machine/Float.lean ====
section
/-!
DEFINITION. Floating-point values and rounding (03 R52 to R61, R68, R69; RISC-V F for the scalar instructions, 04 R79).

A finite value is a dyadic number, sign and man · 2^exp, computed exactly; a result that is not dyadic (a quotient, a root,
a special function) is a truncated magnitude with a sticky mark, `Mag`. Rounding happens once, at the end.
-/
namespace Sys2Proof.Machine

/-- The exceptions an operation raises: NV, DZ (scalar only), OF, UF, NX, IS (03 R57, 04 R79). -/
structure Flags where
  nv : Bool := false
  dz : Bool := false
  ovf : Bool := false
  unf : Bool := false
  nx : Bool := false
  isat : Bool := false
  deriving DecidableEq, Repr

def Flags.none : Flags := {}
def Flags.or (a b : Flags) : Flags :=
  { nv := a.nv || b.nv, dz := a.dz || b.dz, ovf := a.ovf || b.ovf, unf := a.unf || b.unf, nx := a.nx || b.nx,
    isat := a.isat || b.isat }
def Flags.invalid : Flags := { nv := true }
def Flags.invalidIf (b : Bool) : Flags := { nv := b }

/-- How a format spends the top of its code space (03 R52). -/
inductive Specials where
  | ieee      -- infinities and NaNs at E all ones
  | e4m3      -- one NaN, no infinity
  | allFinite -- every code a finite number
  deriving DecidableEq, Repr

structure Fmt where
  e : Nat
  m : Nat
  bias : Nat
  specials : Specials
  deriving DecidableEq, Repr

def Fmt.width (f : Fmt) : Nat := 1 + f.e + f.m

/-- 03 R52. -/
def fp32 : Fmt := ⟨8, 23, 127, .ieee⟩
def fp16 : Fmt := ⟨5, 10, 15, .ieee⟩
def bf16 : Fmt := ⟨8, 7, 127, .ieee⟩
def fpE4m3 : Fmt := ⟨4, 3, 7, .e4m3⟩
def fpE5m2 : Fmt := ⟨5, 2, 15, .ieee⟩
def fpE2m3 : Fmt := ⟨2, 3, 1, .allFinite⟩
def fpE2m1 : Fmt := ⟨2, 1, 1, .allFinite⟩

/-- The narrow formats (03 R53). -/
def Fmt.narrow (f : Fmt) : Bool := f == fpE4m3 || f == fpE5m2 || f == fpE2m3 || f == fpE2m1
/-- Has the format an infinity for results beyond its range? E5M2 has one, but conversions saturate (03 R57, R60). -/
def Fmt.saturates (f : Fmt) : Bool := f.narrow

def Fmt.canonicalNan (f : Fmt) : Nat :=
  match f.specials with
  | .ieee => (2 ^ f.e - 1) * 2 ^ f.m + 2 ^ (f.m - 1)
  | .e4m3 => 0x7F
  | .allFinite => 2 ^ (f.e + f.m) - 1

def Fmt.infCode (f : Fmt) (neg : Bool) : Nat := (if neg then 2 ^ (f.e + f.m) else 0) + (2 ^ f.e - 1) * 2 ^ f.m

/-- The code of the largest finite magnitude. -/
def Fmt.maxCode (f : Fmt) (neg : Bool) : Nat :=
  (if neg then 2 ^ (f.e + f.m) else 0) +
  match f.specials with
  | .ieee => (2 ^ f.e - 1) * 2 ^ f.m - 1
  | .e4m3 => 0x7E
  | .allFinite => 2 ^ (f.e + f.m) - 1

/-- A value. A NaN keeps its sign and whether it is quiet (03 R53). -/
inductive FVal where
  | nan (neg quiet : Bool)
  | inf (neg : Bool)
  | fin (neg : Bool) (man : Nat) (exp : Int)
  deriving DecidableEq, Repr

/-- The exponent of a format's subnormal spacing. -/
def Fmt.qmin (f : Fmt) : Int := 1 - (f.bias : Int) - (f.m : Int)

/-- The value of a code (03 R52 to R55). -/
def fdecode (f : Fmt) (code : Nat) : FVal :=
  let neg := code / 2 ^ (f.e + f.m) % 2 == 1
  let ex := code / 2 ^ f.m % 2 ^ f.e
  let ma := code % 2 ^ f.m
  let finite : FVal :=
    if ex = 0 then .fin neg ma f.qmin else .fin neg (2 ^ f.m + ma) ((ex : Int) - (f.bias : Int) - (f.m : Int))
  match f.specials with
  | .ieee => if ex = 2 ^ f.e - 1 then (if ma = 0 then .inf neg else .nan neg (decide (2 ^ (f.m - 1) ≤ ma))) else finite
  | .e4m3 => if ex = 15 ∧ ma = 7 then .nan neg true else finite
  | .allFinite => finite

def FVal.isNan : FVal → Bool
  | .nan _ _ => true
  | _ => false
def FVal.isSignalling : FVal → Bool
  | .nan _ q => !q
  | _ => false
def FVal.isInf : FVal → Bool
  | .inf _ => true
  | _ => false
def FVal.isZero : FVal → Bool
  | .fin _ m _ => m == 0
  | _ => false
def FVal.neg : FVal → Bool
  | .nan n _ => n
  | .inf n => n
  | .fin n _ _ => n

/-- A magnitude: exactly man · 2^exp, or, with `sticky`, strictly between that and (man + 1) · 2^exp. -/
structure Mag where
  man : Nat
  exp : Int
  sticky : Bool
  deriving DecidableEq, Repr

/-- Rounding modes: to nearest even, the only one of vectors and matrices (03 R59), and those of `frm` (04 R79). -/
inductive RMode where
  | rne | rtz | rdn | rup | rmm
  deriving DecidableEq, Repr

/-- Is the magnitude rounded up, given the kept part's parity and how the rest compares with one half? -/
def roundsUp (r : RMode) (neg odd : Bool) (half : Ordering) (inexact : Bool) : Bool :=
  match r with
  | .rne => half == .gt || (half == .eq && odd)
  | .rmm => half != .lt
  | .rtz => false
  | .rdn => neg && inexact
  | .rup => !neg && inexact

/-- A magnitude rounded to a multiple of 2^q: the multiple and whether it is inexact. -/
def roundAt (r : RMode) (neg : Bool) (g : Mag) (q : Int) : Nat × Bool :=
  if q ≤ g.exp then
    (g.man * 2 ^ (g.exp - q).toNat + (if roundsUp r neg false .lt g.sticky then 1 else 0), g.sticky)
  else
    let sh := (q - g.exp).toNat
    let k := g.man / 2 ^ sh
    let rem := g.man % 2 ^ sh
    let h := 2 ^ (sh - 1)
    let half : Ordering := if rem < h then .lt else if rem = h ∧ g.sticky = false then .eq else .gt
    let inexact := rem != 0 || g.sticky
    (k + (if roundsUp r neg (k % 2 == 1) half inexact then 1 else 0), inexact)

/-- The quantum of a format at a magnitude: the spacing of the format there (03 R61's q). -/
def quantum (f : Fmt) (g : Mag) : Int :=
  let top := g.exp + (Nat.log2 g.man : Int)
  max top (1 - (f.bias : Int)) - (f.m : Int)

/-- The code of k · 2^q where q is a quantum of the format, or `none` beyond the largest finite magnitude. -/
def encodeFinite (f : Fmt) (neg : Bool) (k : Nat) (q : Int) : Option Nat :=
  let s := if neg then 2 ^ (f.e + f.m) else 0
  if k < 2 ^ f.m then some (s + k)
  else
    let (k', q') := if 2 ^ (f.m + 1) ≤ k then (k / 2, q + 1) else (k, q)
    let ex := (q' + (f.m : Int) + (f.bias : Int)).toNat
    let code := ex * 2 ^ f.m + (k' - 2 ^ f.m)
    if code ≤ f.maxCode false then some (s + code) else none

/-- What a format delivers beyond its range (03 R57): the narrow formats saturate; the others give an infinity, or their
largest finite number where the rounding mode points inwards. -/
def overflowCode (f : Fmt) (r : RMode) (neg : Bool) : Nat :=
  if f.saturates then f.maxCode neg
  else match r with
    | .rne | .rmm => f.infCode neg
    | .rtz => f.maxCode neg
    | .rdn => if neg then f.infCode true else f.maxCode false
    | .rup => if neg then f.maxCode true else f.infCode false

/-- Is the rounded magnitude k · 2^q below the smallest normal? -/
def belowNormal (f : Fmt) (k : Nat) (q : Int) : Bool := q == f.qmin && decide (k < 2 ^ f.m)

/-- Rounding into a format with the flags of 03 R57. UF: inexact and the delivered magnitude below the smallest normal
(R57 "its magnitude after rounding"; DEDUCED, assumption 10). -/
def roundMag (f : Fmt) (neg : Bool) (g : Mag) : Nat × Flags :=
  let q := quantum f g
  let (k, inexact) := roundAt .rne neg g q
  match encodeFinite f neg k q with
  | none => (overflowCode f .rne neg, { ovf := true, nx := true })
  | some c => (c, { nx := inexact, unf := inexact && belowNormal f k q })

/-- Rounding of a scalar F instruction into FP32 (04 R79): tininess is detected after rounding, with the exponent range
unbounded, as the RISC-V F extension defines. -/
def roundScalar (r : RMode) (neg : Bool) (g : Mag) : Nat × Flags :=
  let q := quantum fp32 g
  let (k, inexact) := roundAt r neg g q
  let qu := g.exp + (Nat.log2 g.man : Int) - 23
  let (ku, _) := roundAt r neg g qu
  let tiny := decide ((qu + (Nat.log2 ku : Int)) < -126)
  match encodeFinite fp32 neg k q with
  | none => (overflowCode fp32 r neg, { ovf := true, nx := true })
  | some c => (c, { nx := inexact, unf := inexact && tiny })

/-! Exact arithmetic on finite values. -/

/-- A finite value as a signed multiple of 2^q, for q at most its exponent. -/
def scaledTo (neg : Bool) (man : Nat) (exp q : Int) : Int :=
  let v : Int := (man * 2 ^ (exp - q).toNat : Nat)
  if neg then -v else v

def magOfInt (v q : Int) : Mag := ⟨v.natAbs, q, false⟩

/-- Sum of two finite values: negative?, exact magnitude. The sign of an exact zero: that of both operands where they
agree, else negative only when rounding down. -/
def addExact (r : RMode) (n1 : Bool) (m1 : Nat) (e1 : Int) (n2 : Bool) (m2 : Nat) (e2 : Int) : Bool × Mag :=
  let q := min e1 e2
  let v := scaledTo n1 m1 e1 q + scaledTo n2 m2 e2 q
  let n := if v = 0 then (if n1 == n2 then n1 else r == .rdn) else decide (v < 0)
  (n, magOfInt v q)

/-- A result of an operation before rounding. -/
inductive Raw1 where
  | nan (flags : Flags)
  | inf (neg : Bool) (flags : Flags)
  | val (neg : Bool) (g : Mag)
  deriving DecidableEq, Repr

/-- A NaN operand: NV only when one signals. -/
def nanOf (a b : FVal) : Raw1 := .nan (Flags.invalidIf (a.isSignalling || b.isSignalling))

def fvAdd (r : RMode) (a b : FVal) : Raw1 :=
  match a, b with
  | .fin n1 m1 e1, .fin n2 m2 e2 => let (n, g) := addExact r n1 m1 e1 n2 m2 e2; .val n g
  | .inf n1, .inf n2 => if n1 == n2 then .inf n1 .none else .nan .invalid
  | .inf n, .fin _ _ _ => .inf n .none
  | .fin _ _ _, .inf n => .inf n .none
  | _, _ => nanOf a b

def fvNeg : FVal → FVal
  | .nan n q => .nan (!n) q
  | .inf n => .inf (!n)
  | .fin n m e => .fin (!n) m e

def fvMul (a b : FVal) : Raw1 :=
  match a, b with
  | .fin n1 m1 e1, .fin n2 m2 e2 => .val (n1 != n2) ⟨m1 * m2, e1 + e2, false⟩
  | .inf n1, .inf n2 => .inf (n1 != n2) .none
  | .inf n1, .fin n2 m _ => if m = 0 then .nan .invalid else .inf (n1 != n2) .none
  | .fin n1 m _, .inf n2 => if m = 0 then .nan .invalid else .inf (n1 != n2) .none
  | _, _ => nanOf a b

/-- a × b + c, exact, rounded once. 0 × ∞ is invalid even when c is a quiet NaN (03 R68; RISC-V F). -/
def fvFma (r : RMode) (a b c : FVal) : Raw1 :=
  let p := fvMul a b
  let sig := a.isSignalling || b.isSignalling || c.isSignalling
  match p, c with
  | .nan fl, _ => .nan (fl.or (Flags.invalidIf sig))
  | _, .nan _ _ => .nan (Flags.invalidIf sig)
  | .inf n _, .inf n2 => if n == n2 then .inf n .none else .nan .invalid
  | .inf n _, .fin _ _ _ => .inf n .none
  | .val _ _, .inf n => .inf n .none
  | .val n g, .fin n2 m2 e2 => let (k, h) := addExact r n g.man g.exp n2 m2 e2; .val k h

/-- A quotient of naturals as a magnitude with at least 80 bits. -/
def magDiv (num den : Nat) (e : Int) : Mag :=
  let sh := 80 + Nat.log2 den
  let n := num * 2 ^ sh
  ⟨n / den, e - (sh : Int), n % den != 0⟩

def fvDiv (a b : FVal) : Raw1 :=
  match a, b with
  | .fin n1 m1 e1, .fin n2 m2 e2 =>
      if m2 = 0 then (if m1 = 0 then .nan .invalid else .inf (n1 != n2) { dz := true })
      else .val (n1 != n2) (magDiv m1 m2 (e1 - e2))
  | .inf _, .inf _ => .nan .invalid
  | .inf n1, .fin n2 _ _ => .inf (n1 != n2) .none
  | .fin n1 _ _, .inf n2 => .val (n1 != n2) ⟨0, 0, false⟩
  | _, _ => nanOf a b

/-- The integer square root by bits, from bit `k` down. -/
def isqrtGo (n : Nat) : Nat → Nat → Nat
  | 0, acc => acc
  | k + 1, acc => let c := acc + 2 ^ k; isqrtGo n k (if c * c ≤ n then c else acc)

def isqrt (n : Nat) : Nat := isqrtGo n (Nat.log2 n / 2 + 1) 0

/-- The square root of a magnitude, with at least 80 bits. -/
def magSqrt (m : Nat) (e : Int) : Mag :=
  let sh : Nat := 160 + (if (e % 2 = 0) then 0 else 1)
  let n := m * 2 ^ sh
  let r := isqrt n
  ⟨r, (e - (sh : Int)) / 2, r * r != n⟩

def fvSqrt (a : FVal) : Raw1 :=
  match a with
  | .nan _ q => .nan (Flags.invalidIf (!q))
  | .inf n => if n then .nan .invalid else .inf false .none
  | .fin n m e => if m = 0 then .val n ⟨0, 0, false⟩ else if n then .nan .invalid else .val false (magSqrt m e)

/-- Delivery of a vector or matrix result (03 R53, R57, R59). An exact infinity raises nothing further. -/
def deliver (f : Fmt) (x : Raw1) : Nat × Flags :=
  match x with
  | .nan fl => (f.canonicalNan, fl)
  | .inf n fl => (f.infCode n, fl)
  | .val n g => roundMag f n g

/-- Delivery of a scalar F result (04 R79). -/
def deliverScalar (r : RMode) (x : Raw1) : Nat × Flags :=
  match x with
  | .nan fl => (0x7FC00000, fl)
  | .inf n fl => (fp32.infCode n, fl)
  | .val n g => roundScalar r n g

/-! Comparison and selection (03 R68). -/

/-- The order of two values that are no NaN; −0 equals +0. -/
def fvCmp (a b : FVal) : Ordering :=
  match a, b with
  | .fin n1 m1 e1, .fin n2 m2 e2 =>
      let q := min e1 e2
      compare (scaledTo n1 m1 e1 q) (scaledTo n2 m2 e2 q)
  | .inf n1, .inf n2 => if n1 == n2 then .eq else if n1 then .lt else .gt
  | .inf n, _ => if n then .lt else .gt
  | _, .inf n => if n then .gt else .lt
  | _, _ => .eq

/-- −0 orders below +0. -/
def fvLess (a b : FVal) : Bool := fvCmp a b == .lt || (fvCmp a b == .eq && a.neg && !b.neg)

/-- `vmin` and `vmax` on codes: NaN-propagating. -/
def fvMinMax (f : Fmt) (isMax : Bool) (ca cb : Nat) : Nat × Flags :=
  let a := fdecode f ca
  let b := fdecode f cb
  if a.isNan || b.isNan then (f.canonicalNan, Flags.invalidIf (a.isSignalling || b.isSignalling))
  else if isMax then (if fvLess a b then cb else ca, .none) else (if fvLess b a then cb else ca, .none)

/-! Conversions (03 R60). -/

/-- A floating-point value into a floating-point format. -/
def convertTo (f : Fmt) (x : FVal) : Nat × Flags :=
  match x with
  | .nan n q =>
      if f.specials == .allFinite then (f.maxCode n, .invalid) else (f.canonicalNan, Flags.invalidIf (!q))
  | .inf n => if f.saturates then (f.maxCode n, { ovf := true, nx := true }) else (f.infCode n, .none)
  | .fin n m e => roundMag f n ⟨m, e, false⟩

/-- A finite magnitude rounded to an integer. -/
def roundInt (r : RMode) (neg : Bool) (m : Nat) (e : Int) : Int × Bool :=
  let (k, inexact) := roundAt r neg ⟨m, e, false⟩ 0
  (if neg then -(k : Int) else (k : Int), inexact)

/-- A floating-point value into a signed integer of `w` bits, saturating, ties to even (03 R60). -/
def convertToInt (w : Nat) (x : FVal) : Int × Flags :=
  let lo : Int := -(2 ^ (w - 1) : Nat)
  let hi : Int := (2 ^ (w - 1) : Nat) - 1
  match x with
  | .nan _ _ => (0, .invalid)
  | .inf n => (if n then lo else hi, { isat := true })
  | .fin n m e =>
      let (v, inexact) := roundInt .rne n m e
      if v < lo then (lo, { isat := true, nx := inexact })
      else if hi < v then (hi, { isat := true, nx := inexact })
      else (v, { nx := inexact })

/-- An integer into a floating-point format. -/
def convertOfInt (f : Fmt) (v : Int) : Nat × Flags := roundMag f (decide (v < 0)) ⟨v.natAbs, 0, false⟩

/-- Stochastic rounding (03 R61): `n` random bits `r`, whose value is below 2^n. The value is not NaN and not infinite. -/
def stochastic (f : Fmt) (n r : Nat) (neg : Bool) (m : Nat) (e : Int) : Nat × Flags :=
  let q := quantum f ⟨m, e, false⟩
  let (k, num, den) : Nat × Nat × Nat :=
    if m = 0 then (0, 0, 1)
    else if q ≤ e then (m * 2 ^ (e - q).toNat, 0, 1)
    else let d := 2 ^ (q - e).toNat; (m / d, m % d, d)
  let fn := num * 2 ^ n / den
  let k := if 2 ^ n ≤ fn + r then k + 1 else k
  let inexact := num != 0
  match encodeFinite f neg k q with
  | none => (if f == bf16 then f.infCode neg else f.maxCode neg, { ovf := true, nx := true })
  | some c => (c, { nx := inexact, unf := inexact && belowNormal f k q })

end Sys2Proof.Machine
end

