-- ==== Sys2Proof/Syntax.lean ====
section
/-!
DEFINITION. The instructions and steps of the GW-1: one constructor for each row of spec/opcode_table.json.

The operand bundles follow the five custom formats of 02 R32 (CR, CP, CV and its sub-operation form VU, CM as MM),
with the field names of that rule; the base instructions of 02 R40 are grouped as the table groups them. Fields are
numbers; Sys2Proof/WellFormed.lean says which numbers a field may hold and which fields a form reserves (02 R32 to R39).
The steps of the hardware, the islands, the host and the environment (the table's rows without an encoding) carry, as
arguments, the agent that acts and the data that comes from outside the machine. A step of one tile or one thread carries
no agent: like an instruction it acts on the tile and thread that State's `focus` names.
-/
namespace Sys2Proof

/-- CR format fields (02 R32): S, rd, rs1, rs2. -/
structure CR where
  s : Bool
  rd : Nat
  rs1 : Nat
  rs2 : Nat
  deriving DecidableEq, Repr

/-- CP format fields (02 R32, R33): S, the three K bits, d, a, b. -/
structure CP where
  s : Bool
  kd : Bool
  k1 : Bool
  k2 : Bool
  d : Nat
  a : Nat
  b : Nat
  deriving DecidableEq, Repr

/-- CV format fields (02 R32, R34): S, et, pg, vs2 (`f2`), vs1 (`f1`), vd (`fd`). -/
structure CV where
  s : Bool
  et : Nat
  pg : Nat
  f2 : Nat
  f1 : Nat
  fd : Nat
  deriving DecidableEq, Repr

/-- CV format fields of a `vun` or `vpr` sub-operation (02 R38), whose vs2 field selects it. -/
structure VU where
  s : Bool
  et : Nat
  pg : Nat
  f1 : Nat
  fd : Nat
  deriving DecidableEq, Repr

/-- CM format fields of a product form (02 R32, R39): S, fs, rs2, rs1 and the parts T, G, Z, accumulator of d. -/
structure MM where
  s : Bool
  fs : Nat
  rs2 : Nat
  rs1 : Nat
  t : Bool
  g : Bool
  z : Bool
  acc : Nat
  deriving DecidableEq, Repr

/-- A Zicsr word (02 R40): write, set or clear; register or immediate source; CSR number; rd; the source field. -/
inductive CsrOp where
  | rw | rs | rc
  deriving DecidableEq, Repr

structure CsrArgs where
  op : CsrOp
  imm : Bool
  csr : Nat
  rd : Nat
  src : Nat
  deriving DecidableEq, Repr

inductive LoadOp where
  | lb | lh | lw | ld | lbu | lhu | lwu | flw
  deriving DecidableEq, Repr

inductive StoreOp where
  | sb | sh | sw | sd | fsw
  deriving DecidableEq, Repr

inductive AmoOp where
  | swap | add | xor | and | or | min | max | minu | maxu
  deriving DecidableEq, Repr

inductive CtlOp where
  | jal | jalr | beq | bne | blt | bge | bltu | bgeu
  deriving DecidableEq, Repr

/-- The computations of RV64I, M, Zba and Zbb (02 R40). -/
inductive IntOp where
  | lui | auipc
  | addi | slti | sltiu | xori | ori | andi | slli | srli | srai
  | addiw | slliw | srliw | sraiw
  | add | sub | sll | slt | sltu | xor | srl | sra | or | and
  | addw | subw | sllw | srlw | sraw
  | mul | mulh | mulhsu | mulhu | div | divu | rem | remu
  | mulw | divw | divuw | remw | remuw
  | adduw | sh1add | sh2add | sh3add | sh1adduw | sh2adduw | sh3adduw | slliuw
  | andn | orn | xnor | clz | ctz | cpop | clzw | ctzw | cpopw
  | max | maxu | min | minu | sextb | sexth | zexth
  | rol | ror | rori | rolw | rorw | roriw | orcb | rev8
  deriving DecidableEq, Repr

/-- The operations of RV64F other than `flw` and `fsw` (02 R40). -/
inductive FpOp where
  | fmadd | fmsub | fnmsub | fnmadd
  | fadd | fsub | fmul | fdiv | fsqrt
  | fsgnj | fsgnjn | fsgnjx | fmin | fmax
  | fcvtws | fcvtwus | fcvtls | fcvtlus | fcvtsw | fcvtswu | fcvtsl | fcvtslu
  | fmvxw | fmvwx | feq | flt | fle | fclass
  deriving DecidableEq, Repr

/-- A register an island may write (01 R17, 12 R269, 20 R408): through a window of a tile on the system path, or in
an island's system window, or an edge port's forwarding table. -/
inductive RegTarget where
  /-- a tile by name (12 R264), with a write of `size` bytes at a window and offset of it (12 R269) -/
  | tile (name size window offset : Nat)
  | island (island offset : Nat)
  /-- doubleword 0 of an entry of an edge port's forwarding table (17 R374) -/
  | port (home entry : Nat)
  /-- a half of REGION_SEED, 0 low or 1 high, which has no address in the spec (04 R90) -/
  | seed (region half : Nat)
  /-- BOOT_STAT, in BAR0 of every host link and the management port's registers (21 R421) -/
  | boot (wafer : Nat)
  deriving DecidableEq, Repr

/-- A stage of the firmware in the boot flash: its image, the slot of its key (0 the owner's, 1 the vendor's), the public key that comes with it,
and its signature (21 R425). -/
structure Stage where
  image : List Nat
  slot : Nat
  key : Nat
  signature : Nat
  deriving DecidableEq, Repr, Inhabited

/-- The PCIe function of a wafer that a host reaches it by: the wafer, and the VF, none for the physical function (20 R412). -/
structure HostFn where
  wafer : Nat
  vf : Option Nat
  deriving DecidableEq, Repr, Inhabited

/-- What a power-on finds and what its firmware works out (21 R420, R425, 18 R382, R386, R387): whether the service network passes; the
islands that fail and the failing tiles, as cluster in the wafer, physical row and column; the tiles at which an edge bridge brings the clock,
each with its port, and those whose clock repeater fails; the override entries around holes: tile in the wafer, entry and value; the clusters
for which no such entries exist; the first-stage image and the later stages; the links marked unused: tile in the wafer and port. Data of the
environment. -/
structure SelfTest where
  serviceOk : Bool
  failedIslands : List Nat
  failedTiles : List (Nat × Nat × Nat)
  clockEntries : List (Nat × Nat)
  failedRepeaters : List Nat
  overrides : List (Nat × Nat × Nat)
  offClusters : List Nat
  firmware : Stage
  stages : List Stage
  unusedLinks : List (Nat × Nat)
  deriving DecidableEq, Repr, Inhabited

/-- The instructions and steps: first those with operands, then those without. -/
inductive Instr where
  /-- `MADD` (R172): Port-form add: consumes its port or stream sources and writes a + b to an x register or sends it as a port word. -/
  | madd (o : CP)
  /-- `MSUB` (R172): Port-form subtract, a − b modulo 2^64. -/
  | msub (o : CP)
  /-- `MAND` (R172): Port-form bitwise AND. -/
  | mand (o : CP)
  /-- `MOR` (R172): Port-form bitwise OR. -/
  | mor (o : CP)
  /-- `MXOR` (R172): Port-form bitwise XOR. -/
  | mxor (o : CP)
  /-- `MSLL` (R172): Port-form left shift by b[5:0]. -/
  | msll (o : CP)
  /-- `MSRL` (R172): Port-form logical right shift by b[5:0]. -/
  | msrl (o : CP)
  /-- `MSRA` (R172): Port-form arithmetic right shift by b[5:0]. -/
  | msra (o : CP)
  /-- `MMIN` (R172): Port-form signed minimum. -/
  | mmin (o : CP)
  /-- `MMAX` (R172): Port-form signed maximum. -/
  | mmax (o : CP)
  /-- `MMINU` (R172): Port-form unsigned minimum. -/
  | mminu (o : CP)
  /-- `MMAXU` (R172): Port-form unsigned maximum. -/
  | mmaxu (o : CP)
  /-- `MMOV` (R172): Port-form move of a to an x register or a port. -/
  | mmov (o : CP)
  /-- `MFADD` (R172): Port-form FP32 add rounded to nearest even, flags in fflags. -/
  | mfadd (o : CP)
  /-- `MFMUL` (R172): Port-form FP32 multiply rounded to nearest even. -/
  | mfmul (o : CP)
  /-- `MFMAX` (R172): Port-form FP32 maximum by the vmax rule. -/
  | mfmax (o : CP)
  /-- `SEND` (R176): Sends one stream-data word from an x register to a named tile on VC 0-11. -/
  | send (o : CR)
  /-- `SENDV` (R176): Sends the tile's 64-byte share of a v register as stream data to a named tile. -/
  | sendv (o : CR)
  /-- `MVC` (R177): Returns the old port-send VC and sets a new one when it is 0-11. -/
  | mvc (o : CR)
  /-- `QBIND` (R179): Binds a stream register to a VC and source tile. -/
  | qbind (o : CR)
  /-- `QFREE` (R179): Releases the binding of a stream register. -/
  | qfree (o : CR)
  /-- `QCOUNT` (R179): Writes the number of stored words matching a stream register's binding. -/
  | qcount (o : CR)
  /-- `QPOPV` (R179): Long-latency consumption of the 8 oldest matching stream words into a v register. -/
  | qpopv (o : CR)
  /-- `TSTAMP` (R93): Writes the tenant's guest time after every earlier instruction has completed. -/
  | tstamp (o : CR)
  /-- `SLOTWAIT` (R94): Stalls the thread until the physical time base reaches the next multiple of 2^k. -/
  | slotwait (o : CR)
  /-- `PWRHINT` (R404): Admits wakes for the announced cold wide units and warms them over 64 cycles. -/
  | pwrhint (o : CR)
  /-- `LLD` (R327): Loads a doubleword from the landing buffer. -/
  | lld (o : CR)
  /-- `LST` (R327): Stores a doubleword into the landing buffer and extends the commit length. -/
  | lst (o : CR)
  /-- `LCRC` (R328): Computes the CRC-32C of a range of the landing buffer. -/
  | lcrc (o : CR)
  /-- `LDEC` (R330): Decodes the zero-run stream in the landing buffer in place and writes a status. -/
  | ldec (o : CR)
  /-- `LCVT` (R331): Converts the landing buffer elements between formats in place and writes a status. -/
  | lcvt (o : CR)
  /-- `LCOMMIT` (R332): Writes the buffer's first CL bytes to the slot, releases the claims and ends the handler. -/
  | lcommit (o : CR)
  /-- `LDROP` (R332): Drops the packet with a code, releases the claims and ends the handler. -/
  | ldrop (o : CR)
  /-- `LINFO` (R333): Returns packet information selected by a constant. -/
  | linfo (o : CR)
  /-- `SPAWN` (R190): Enqueues a copy of a task record from the own scratchpad into the own cluster with a share of leaven. -/
  | spawn (o : CR)
  /-- `SPAWNT` (R191): Sends a task record as a launch message to a named tile. -/
  | spawnt (o : CR)
  /-- `TEND` (R193): Ends the running task, sends its join decrement and leaven return, and makes the thread IDLE. -/
  | tend (o : CR)
  /-- `JDEC` (R194): Sends a join decrement carrying a leaven share to a join counter's home. -/
  | jdec (o : CR)
  /-- `TASKINFO` (R195): Returns task or cluster information selected by a constant. -/
  | taskinfo (o : CR)
  /-- `QWROOT` (R246): Asks the policing island to allocate a quiescence domain and takes its whole weight. -/
  | qwroot (o : CR)
  /-- `QWAIT` (R247): Returns held weight and waits for a domain to become quiet or lost. -/
  | qwait (o : CR)
  /-- `QWHELD` (R248): Writes the thread's held leaven weight. -/
  | qwheld (o : CR)
  /-- `QWRET` (R248): Returns the thread's whole held weight to its root. -/
  | qwret (o : CR)
  /-- `QWDONE` (R249): Retires a domain: QUIET to FREE, LOST to QUARANTINED, waiting while ACTIVE. -/
  | qwdone (o : CR)
  /-- `BARRIVE` (R300): Sends an arrival to a barrier word and returns the phase of arrival and a completion bit. -/
  | barrive (o : CR)
  /-- `BWAIT` (R301): Waits with a watch until a barrier word's phase differs from the given one. -/
  | bwait (o : CR)
  /-- `CWAITGE` (R302): Waits with a watch until a counter is at least a target. -/
  | cwaitge (o : CR)
  /-- `CTEST` (R302): Reads a counter once and writes 1 if it is at least a target. -/
  | ctest (o : CR)
  /-- `GJOIN` (R222): Claims the t0 threads of a row of tiles as followers to form a gathering. -/
  | gjoin (o : CR)
  /-- `GLEAVE` (R229): Takes a member out of its gathering, dissolving it when the leader leaves. -/
  | gleave (o : CR)
  /-- `GREJOIN` (R227): Reunites detached followers with the leader's stream. -/
  | grejoin (o : CR)
  /-- `GSYNC` (R228): Wired gang barrier among the attached members. -/
  | gsync (o : CR)
  /-- `GINFO` (R230): Writes the member's index, size and membership masks. -/
  | ginfo (o : CR)
  /-- `FENCEX` (R287): Waits for earlier accesses of the predecessor classes within a scope and holds back later accesses of the successor classes. -/
  | fencex (s : Bool) (pred succ scope : Nat)
  /-- `LPSET` (R81): Starts a hardware loop over a body of 1-2047 instructions. -/
  | lpset (s : Bool) (len rs1 : Nat)
  /-- `REP` (R86): Executes the following word 1-64 times with stepped register fields. -/
  | rep (s : Bool) (count mask step : Nat)
  /-- `RNG64` (R91): Writes one output of the thread's xoroshiro128** generator. -/
  | rng64 (o : CR)
  /-- `RNGF` (R91): Writes a uniform FP32 in [0, 1) from one generator output. -/
  | rngf (o : CR)
  /-- `RNGV` (R91): Fills the tile's share of a v register with 8 generator outputs. -/
  | rngv (o : CR)
  /-- `RNGJUMP` (R89): Jumps the generator state by a count times 2^32 outputs. -/
  | rngjump (o : CR)
  /-- `NPENTER` (R368): Enters a non-pre-emptible section, raising the section depth. -/
  | npenter (o : CR)
  /-- `NPEXIT` (R368): Leaves a non-pre-emptible section and takes deferred stops at depth 0. -/
  | npexit (o : CR)
  /-- `SLICE` (R369): Writes the nanoseconds granted to the current slice. -/
  | slice (o : CR)
  /-- `ERRINFO` (R95): Waits for first-router checks of earlier posted accesses, then reads and clears errword. -/
  | errinfo (o : CR)
  /-- `VADD` (R107): Predicated element-wise add of two vectors. -/
  | vadd (o : CV)
  /-- `VSUB` (R107): Predicated element-wise subtract. -/
  | vsub (o : CV)
  /-- `VMUL` (R107): Predicated element-wise multiply. -/
  | vmul (o : CV)
  /-- `VFMA` (R107): Predicated fused multiply-add into the destination. -/
  | vfma (o : CV)
  /-- `VMIN` (R107): Predicated element-wise minimum. -/
  | vmin (o : CV)
  /-- `VMAX` (R107): Predicated element-wise maximum. -/
  | vmax (o : CV)
  /-- `VBIT` (R109): Per-byte AND, OR, XOR or AND-NOT selected by the kind in et. -/
  | vbit (o : CV)
  /-- `VSHIFT` (R110): Per-element shift of the kind selected by et. -/
  | vshift (o : CV)
  /-- `VCMP` (R111): Compares elements and writes predicate bits by the relation in the vd field. -/
  | vcmp (o : CV)
  /-- `VSEL` (R112): Selects each element from one of two vectors by the predicate. -/
  | vsel (o : CV)
  /-- `VLD` (R123): Predicated unit-stride or strided vector load. -/
  | vld (o : CV)
  /-- `VST` (R123): Predicated unit-stride or strided vector store. -/
  | vst (o : CV)
  /-- `VGATH` (R123): Predicated gather by 32-bit byte offsets. -/
  | vgath (o : CV)
  /-- `VSCAT` (R123): Predicated scatter by 32-bit byte offsets. -/
  | vscat (o : CV)
  /-- `VNEG` (R108): Negates each active element. -/
  | vneg (o : VU)
  /-- `VABS` (R108): Absolute value of each active element. -/
  | vabs (o : VU)
  /-- `VMOV` (R108): Copies the bits of each active element. -/
  | vmov (o : VU)
  /-- `VSPLATX` (R113): Writes the low bits of an x register into each active element. -/
  | vsplatx (o : VU)
  /-- `VSPLATF` (R113): Converts an f register into et once and writes it into each active element. -/
  | vsplatf (o : VU)
  /-- `VEXTX` (R114): Extracts the architectural element indexed by x[n] from v[n] into an x register. -/
  | vextx (o : VU)
  /-- `VRCP` (R117): Correctly rounded reciprocal. -/
  | vrcp (o : VU)
  /-- `VRSQRT` (R117): Correctly rounded reciprocal square root. -/
  | vrsqrt (o : VU)
  /-- `VEXP2` (R117): Correctly rounded 2^x. -/
  | vexp2 (o : VU)
  /-- `VLOG2` (R117): Correctly rounded log2 x. -/
  | vlog2 (o : VU)
  /-- `VTANH` (R117): Correctly rounded tanh x. -/
  | vtanh (o : VU)
  /-- `VSIGM` (R117): Correctly rounded logistic sigmoid. -/
  | vsigm (o : VU)
  /-- `VREDSUM` (R118): Tree sum of active elements into element 0 of each share. -/
  | vredsum (o : VU)
  /-- `VREDMAX` (R118): Tree maximum of active elements. -/
  | vredmax (o : VU)
  /-- `VREDMIN` (R118): Tree minimum of active elements. -/
  | vredmin (o : VU)
  /-- `VIOTA` (R115): Writes each active element's architectural index. -/
  | viota (o : VU)
  /-- `VCVT` (R120): Converts active elements by round-to-nearest into the format named by the sub-op (16-26). -/
  | vcvt (sub : Nat) (o : VU)
  /-- `VCVTSR` (R61): Converts active elements with stochastic rounding, one generator draw each (sub-ops 27-29). -/
  | vcvtsr (sub : Nat) (o : VU)
  /-- `VQUERY` (R98): Writes the architectural vector width in bits. -/
  | vquery (o : VU)
  /-- `VPERM` (R116): Permutes a register in place by indices in another. -/
  | vperm (o : VU)
  /-- `PAND` (R127): Per-byte-lane AND of two predicates. -/
  | pand (o : VU)
  /-- `POR` (R127): Per-byte-lane OR of two predicates. -/
  | por (o : VU)
  /-- `PXOR` (R127): Per-byte-lane XOR of two predicates. -/
  | pxor (o : VU)
  /-- `PNOT` (R127): Per-byte-lane NOT of a predicate. -/
  | pnot (o : VU)
  /-- `PCOUNT` (R128): Counts the set bits of a predicate over the gathering. -/
  | pcount (o : VU)
  /-- `PFIRST` (R128): Keeps only the lowest active set bit of a predicate. -/
  | pfirst (o : VU)
  /-- `PWHILELT` (R129): Builds a loop predicate from start and limit registers. -/
  | pwhilelt (o : VU)
  /-- `MMA_E4E4` (R136): Queues a block-scaled E4M3 x E4M3 16x16 product into an accumulator. -/
  | mmaE4e4 (o : MM)
  /-- `MMA_E4E5` (R136): Queues a block-scaled E4M3 x E5M2 product. -/
  | mmaE4e5 (o : MM)
  /-- `MMA_E5E4` (R136): Queues a block-scaled E5M2 x E4M3 product. -/
  | mmaE5e4 (o : MM)
  /-- `MMA_E5E5` (R136): Queues a block-scaled E5M2 x E5M2 product. -/
  | mmaE5e5 (o : MM)
  /-- `MMA_E4F6` (R136): Queues a block-scaled E4M3 x E2M3 product. -/
  | mmaE4f6 (o : MM)
  /-- `MMA_E4F4` (R136): Queues a block-scaled E4M3 x E2M1 product. -/
  | mmaE4f4 (o : MM)
  /-- `MMA_F4F4` (R136): Queues a block-scaled E2M1 x E2M1 product. -/
  | mmaF4f4 (o : MM)
  /-- `MMA_BF` (R136): Queues an unscaled BF16 x BF16 product with K = 64. -/
  | mmaBf (o : MM)
  /-- `MMA_I8` (R66): Queues an INT8 product with saturating INT32 accumulation. -/
  | mmaI8 (o : MM)
  /-- `MCONV` (R142): Queues a convolution chunk described by a shape record. -/
  | mconv (o : MM)
  /-- `MACC_ZERO` (R143): Queues zeroing of every pair of an accumulator. -/
  | maccZero (o : CR)
  /-- `MACC_ST` (R143): Queues a store of an accumulator as rounded FP32. -/
  | maccSt (o : CR)
  /-- `MACC_STP` (R143): Queues a store of an accumulator as exact pairs. -/
  | maccStp (o : CR)
  /-- `MACC_LDP` (R143): Queues a load of pairs into an accumulator. -/
  | maccLdp (o : CR)
  /-- `MACC_ROW` (R143): Long-latency read of one accumulator row as FP32 into a v register. -/
  | maccRow (o : CR)
  /-- `CQPUSH` (R309): Checks and pushes a copy request into the tile's copy FIFO, waiting for a slot and a share. -/
  | cqpush (o : CR)
  /-- `CQTRY` (R310): Pushes a copy request only if a slot is free and no borrow is needed, writing 0 or 1. -/
  | cqtry (o : CR)
  /-- `CQTRY_PROBE` (R310): Reports whether a push would find a free slot, pushing nothing. -/
  | cqtryProbe (o : CR)
  /-- `CQCTL_FREE` (R311): Writes the number of free copy FIFO slots. -/
  | cqctlFree (o : CR)
  /-- `CQCTL_WAIT` (R311): Waits until every earlier accepted copy request has completed or been abandoned. -/
  | cqctlWait (o : CR)
  /-- `MPROG` (R144): Writes the matrix queue count and mprogr without waiting. -/
  | mprog (o : CR)
  /-- `LOAD` (R73): Base scalar load, faulting precisely on misalignment, value waited for at first use. -/
  | load (op : LoadOp) (rd rs1 : Nat) (imm : Int)
  /-- `STORE` (R73): Base scalar store, posted to its home. -/
  | store (op : StoreOp) (rs1 rs2 : Nat) (imm : Int)
  /-- `AMO` (R296): Indivisible read-modify-write performed at the home. -/
  | amo (op : AmoOp) (dw aq rl : Bool) (rd rs1 rs2 : Nat)
  /-- `LR` (R78): Load-reserved recording a reservation at the home. -/
  | lr (dw aq rl : Bool) (rd rs1 : Nat)
  /-- `SC` (R78): Store-conditional succeeding only while the home holds the reservation. -/
  | sc (dw aq rl : Bool) (rd rs1 rs2 : Nat)
  /-- `FENCE` (R77): Executes as a system-scope fencex with mapped sets. -/
  | fence (fm pred succ rd rs1 : Nat)
  /-- `FENCE_TSO` (R77): Executes as fence rw, rw. -/
  | fenceTso (rd rs1 : Nat)
  /-- `FENCE_I` (R20): Makes known-complete writes to the scratchpad visible to the thread's fetch. -/
  | fenceI (rd rs1 imm : Nat)
  /-- `CSR_ACCESS` (R15): Zicsr read, write, set or clear of a listed CSR; an unlisted number traps. -/
  | csrAccess (o : CsrArgs)
  /-- `CONTROL_TRANSFER` (R19): Branch or jump within the thread's own scratchpad prefix. -/
  | controlTransfer (op : CtlOp) (rd rs1 rs2 : Nat) (imm : Int)
  /-- `INTEGER_OP` (R40): Standard RV64I, M, Zba or Zbb computation. -/
  | integerOp (op : IntOp) (rd rs1 rs2 : Nat) (imm : Int)
  /-- `FP_OP` (R79): Standard RV64F instruction setting only fflags. -/
  | fpOp (op : FpOp) (rm rd rs1 rs2 rs3 : Nat)
  /-- `MATRIX_ROW_COMMIT` (R136): A product row is committed whole with its flags; parity errors stop the tile. -/
  | matrixRowCommit (parity : Bool)
  /-- `ISLAND_THREAD_START` (R27): The island starts a thread through the control window. -/
  | islandThreadStart (code : Nat)
  /-- `ISLAND_LAUNCH` (R187): The island enqueues a task record with fields it sets. -/
  | islandLaunch (d0 d1 d2 : Nat)
  /-- `MESSAGE_ROUTE` (R158): A router takes a message header, checks name, KIND and VC, and ejects, forwards or refuses it. -/
  | messageRoute (port vc : Nat) (esc : Bool)
  /-- `FLIT_CRC_REPLAY` (R164): A receiver finds a CRC mismatch, discards the flit and later flits and requests a replay. -/
  | flitCrcReplay (port : Nat)
  /-- `LINK_DOWN` (R165): After 8 failed replays the link is marked down, messages held and the islands informed. -/
  | linkDown (port : Nat)
  /-- `MEMORY_REQUEST` (R281): A memory request is performed at its home and answered with a response or acknowledgement. -/
  | memoryRequest (home : Nat)
  /-- `LEAVEN_RETURN` (R243): A leaven return is added to HOME at the root cluster, or forwarded there, possibly making the domain QUIET. -/
  | leavenReturn (at_ : Nat)
  /-- `BORROW_REQUEST` (R244): A root cluster grants 2^40 units, waits, or refuses a borrow request. -/
  | borrowRequest (at_ : Nat)
  /-- `JOIN_DECREMENT` (R194): A join counter is decremented at its home and its record enqueued on reaching zero. -/
  | joinDecrement (home : Nat)
  /-- `BARRIER_ARRIVAL` (R300): An arrival is applied indivisibly to a barrier word at its home and watches are woken. -/
  | barrierArrival (home : Nat)
  /-- `DOMAIN_ALLOCATION_REQUEST` (R246): The policing island allocates the lowest FREE domain in every cluster of the region and replies. -/
  | domainAllocationRequest (island : Nat)
  /-- `OPEN` (R411): System call 1 opening a file. -/
  | openFile (result : Nat)
  /-- `READ` (R411): System call 3 reading a file into a pinned buffer. -/
  | readFile (data : List Nat)
  /-- `WRITE` (R411): System call 4 writing a pinned buffer to a file. -/
  | writeFile (written : Nat)
  /-- `REGISTER_WINDOW_ACCESS` (R267): A remote access to a register window is performed at the owner's next instruction boundary. -/
  | registerWindowAccess (home : Nat)
  /-- `STREAM_WINDOW_STORE` (R268): An 8-byte store to window 7 becomes a stream-data word at the named tile. -/
  | streamWindowStore (home : Nat)
  /-- `ACCUMULATOR_WINDOW_ACCESS` (R145): A window 5 access is performed after the queued matrix entries complete. -/
  | accumulatorWindowAccess (home : Nat)
  /-- `COPY_CLAIM` (R291): A claim at a line's home is granted in arrival order, removing reservations. -/
  | copyClaim (home : Nat)
  /-- `COPY_DATA` (R316): Plain copy data writes its line at the home and releases the claim. -/
  | copyData (home : Nat)
  /-- `COPY_INCREMENT` (R318): The counter increment is added at its home, waking watches and returning the copy's share. -/
  | copyIncrement (home : Nat)
  /-- `TRANSLATION_WALK` (R274): An island translation unit's Sv57 walk completes, filling a cache entry or ending the context with a miss. -/
  | translationWalk (index : Nat)
  /-- `WXLAT_INV_GO` (R277): A WXLAT_INV write with GO starts an invalidation of matching translations. -/
  | wxlatInvGo (island value : Nat)
  /-- `TILE_INVALIDATION` (R278): A tile removes matching entries, waits for accesses that used them, and acknowledges. -/
  | tileInvalidation (island tile : Nat)
  /-- `INVALIDATION_DONE` (R278): All tiles have acknowledged; BUSY clears, DONE sets and the interrupt is raised if enabled. -/
  | invalidationDone (island : Nat)
  /-- `WXLAT_INV_DONE_CLEAR` (R277): Writing 1 to DONE clears it. -/
  | wxlatInvDoneClear (island : Nat)
  /-- `DISPATCH_DECISION` (R199): The policy engine runs the DISPATCH entry of the recipe on a snapshot and applies its effects at end. -/
  | dispatchDecision (cluster : Nat)
  /-- `PREEMPT_DECISION` (R199): The policy engine runs the PREEMPT entry for a slice end or priority wait. -/
  | preemptDecision (cluster : Nat)
  /-- `FAULT_DECISION` (R346): The policy engine runs the FAULT entry and applies the chosen or forced action to the stopped thread. -/
  | faultDecision (cluster : Nat)
  /-- `TIMER_DECISION` (R199): The policy engine runs the TIMER entry. -/
  | timerDecision (cluster : Nat)
  /-- `DECISION_OVERRUN` (R209): A decision reaching its 97th step discards its effects and takes the entry's fallback. -/
  | decisionOverrun (cluster : Nat)
  /-- `TIMER_EVENT` (R200): A 2^K ns time-base boundary raises a TIMER event. -/
  | timerEvent (cluster : Nat)
  /-- `AGE_OVERRIDE` (R211): Between decisions, records past AGE_LIMIT are dispatched or a lowest-priority task evicted. -/
  | ageOverride (cluster : Nat)
  /-- `RECIPE_COMMIT` (R217): A RECIPE_COMMIT write starts a commit, computing T and sending prepares. -/
  | recipeCommit (region value : Nat)
  /-- `RECIPE_PREPARE` (R218): A cluster validates the named slot, sets PEND and acknowledges. -/
  | recipePrepare (cluster : Nat)
  /-- `RECIPE_GO` (R217): All valid acknowledgements arrived by T − 512 ns and the island sends the go. -/
  | recipeGo (region : Nat)
  /-- `RECIPE_SWITCH` (R217): At time T each cluster activates the committed slot, or clears PEND without a go. -/
  | recipeSwitch (cluster : Nat)
  /-- `RECIPE_CTL_CLEAR` (R215): Writing 1 to FAIL or QSTAT_OVF clears it. -/
  | recipeCtlClear (cluster value : Nat)
  /-- `HANG_WINDOW_EXPIRY` (R258): The region's hang condition has held for HANG_WINDOW; LOST waiters wake or the hang trap is raised. -/
  | hangWindowExpiry (region : Nat)
  /-- `ACCESS_TIMEOUT` (R345): A response or acknowledgement not received within 1,048,576 ns faults or is counted as arrived. -/
  | accessTimeout (id : Nat)
  /-- `TILE_REPAIR` (R353): Rows are drained, the endpaper row mapped in, contexts restored and the generation advanced. -/
  | tileRepair (readable : Bool)
  /-- `SCRUB_UNCORRECTABLE` (R351): Scrub finds an uncorrectable granule, marks it poisoned and reports. -/
  | scrubUncorrectable (granule : Nat)
  /-- `TEN_CTL_LOAD` (R363): CMD LOAD restores a context onto its clusters and resumes its threads. -/
  | tenCtlLoad (region : Nat)
  /-- `TEN_CTL_SAVE` (R360): CMD SAVE stops the region's threads and starts the drain. -/
  | tenCtlSave (region : Nat)
  /-- `TEN_CTL_TERMINATE` (R370): CMD TERMINATE ends the context, wiping its state and freeing its domains. -/
  | tenCtlTerminate (region : Nat)
  /-- `SLICE_EXPIRY` (R369): The granted slice falls due and the context starts draining, with debt for deferred sections. -/
  | sliceExpiry (region : Nat)
  /-- `DRAIN_COMPLETE` (R360): The drain conditions hold; replay entries and router images are recorded and the context saved. -/
  | drainComplete (region : Nat)
  /-- `DRAIN_TIMEOUT` (R360): A program-VC message stays outside the region for 100 µs and the context becomes TERMINATING. -/
  | drainTimeout (region : Nat)
  /-- `VF_RESET` (R377): A function-level reset terminates the VF's bound region and cancels its calls. -/
  | vfReset (vf : Nat)
  /-- `HOST_HOT_RESET` (R378): A host hot reset resets the device or only retrains the link, by HOSTRST_MODE. -/
  | hostHotReset (wafer link : Nat) (selfTest : SelfTest)
  /-- `SLICE_MOVE_START` (R374): A forwarding-table entry write with V = 1 and FWD = 0 starts moving a 2 MiB chunk. -/
  | sliceMoveStart (home entry chunk target : Nat)
  /-- `SLICE_MOVE_LINE` (R374): The port claims, copies and marks one line forwarded, setting FWD after the last. -/
  | sliceMoveLine (home entry : Nat)
  /-- `FORWARDED_ACCESS` (R374): An access to a forwarded line is sent on to the new home unchanged. -/
  | forwardedAccess (home : Nat)
  /-- `CLOCK_SOURCE_SWITCH` (R383): A stopped source clock or rewritten CLK_SRC makes the tile hold its clock, switch source and realign its time base. -/
  | clockSourceSwitch (port : Nat)
  /-- `PROOFING_PASS` (R392): A due pass withholds and stops a tile, tests it for up to 40 µs and resumes it. -/
  | proofingPass (fails : Bool)
  /-- `WAFER_ADVANCE` (R390): The island sets every live coordinate of a wafer to a new generation and rebuilds retirement entries. -/
  | waferAdvance (wafer : Nat)
  /-- `CLUS_FREQ_WRITE` (R397): A change of requested frequency holds the cluster clock for at most 1 µs and changes EFF. -/
  | clusFreqWrite (cluster value : Nat)
  /-- `RAIL_CTL_WRITE` (R398): A rail setpoint write lowers or raises EFF and the rail voltage in order. -/
  | railCtlWrite (island value : Nat)
  /-- `RAIL_CHANGE_COMPLETE` (R398): The rail reaches its setpoint and BUSY clears. -/
  | railChangeComplete (island : Nat)
  /-- `UNIT_COLD` (R402): A wide unit that executed nothing for 1,024 cycles becomes cold. -/
  | unitCold (matrix : Bool)
  /-- `GT_SAVED_WRITE` (R406): A write while UNLOADED or FREE stores the larger of old and written guest time. -/
  | gtSavedWrite (region value : Nat)
  /-- `NVME_SUBMISSION_DOORBELL` (R418): A submission tail doorbell write makes the island check and submit each new entry. -/
  | nvmeSubmissionDoorbell (island queue : Nat)
  /-- `NVME_COMPLETION_DOORBELL` (R418): A completion head doorbell write records the tenant's consumed completions. -/
  | nvmeCompletionDoorbell (island queue : Nat)
  /-- `NVME_CONTROLLER_COMPLETION` (R418): The controller completes an entry and the island writes the tenant's completion with its phase tag. -/
  | nvmeControllerCompletion (island queue status : Nat) (data : List Nat)
  /-- `OXSOR_FRAME` (R417): An Oxsor link frame is received, acknowledged and its messages delivered in order. -/
  | oxsorFrame (src dst : Nat)
  /-- `OXSOR_PATH_DOWN` (R417): A wafer-to-wafer path with no delivered frame for 10 ms is marked down. -/
  | oxsorPathDown (src dst : Nat)
  /-- `POWER_ON` (R420): Power-on runs the boot stages, ending in stage 6 or the safe state. -/
  | powerOn (wafer : Nat) (selfTest : SelfTest)
  /-- `MANAGEMENT_PORT_RESET` (R422): A life-cycle-preserving reset from the management port. -/
  | managementPortReset (wafer : Nat) (selfTest : SelfTest)
  /-- `LC_PROVISION` (R424): Factory provisioning of keys moves BLANK to MANUFACTURE. -/
  | lcProvision (wafer ownerKey vendorKey : Nat)
  /-- `LC_REQ_SECURED` (R424): A signed request moves the device to SECURED, then wipes and resets. -/
  | lcReqSecured (wafer tokenAt : Nat)
  /-- `LC_REQ_DEBUG_OPEN` (R424): An owner-signed request moves SECURED to DEBUG_OPEN. -/
  | lcReqDebugOpen (wafer tokenAt : Nat)
  /-- `LC_REQ_RETURN` (R424): A vendor-signed request moves the device to RETURN, erasing owner keys. -/
  | lcReqReturn (wafer tokenAt : Nat)
  /-- `LC_REQ_RETIRED` (R424): A signed request moves the device to RETIRED. -/
  | lcReqRetired (wafer tokenAt : Nat)
  /-- `ATTESTATION_QUOTE` (R426): Signs a nonce with MR0-MR7, LC and the quote count. -/
  | attestationQuote (wafer nonce : Nat)
  /-- `DBG_EN_SET` (R427): Attaching a debugger to a region, extending MR5, when permitted. -/
  | dbgEnSet (region : Nat)
  /-- `DBG_EN_CLEAR` (R428): Clearing EN resumes halted threads and clears the breakpoints. -/
  | dbgEnClear (region : Nat)
  /-- `DBG_HALT` (R427): Writing HALT debug-halts every thread of the region while EN = 1. -/
  | dbgHalt (region : Nat)
  /-- `DBG_GRANT` (R427): The island sets or clears the tenant's debug grant, clearing EN in SECURED. -/
  | dbgGrant (region : Nat) (grant : Bool)
  /-- `ERRWORD_READ` (R14): A read of errword returns and clears it. -/
  | errwordRead (o : CsrArgs)
  /-- `QWDOMAIN_WRITE` (R250): A changing write to qwdomain first returns held weight to the old domain. -/
  | qwdomainWrite (o : CsrArgs)
  /-- `QBIND_CSR_WRITE` (R179): A write of a qbind CSR acts as qbind or qfree. -/
  | qbindCsrWrite (o : CsrArgs)
  /-- `FXFLAGS_ACCESS` (R58): A t0 access to fxflags first waits for every earlier matrix entry to commit. -/
  | fxflagsAccess (o : CsrArgs)
  /-- `LINK_STAT_READ` (R165): A read of LINK_STAT returns and clears RETRIES. -/
  | linkStatRead (port : Nat)
  /-- `NPOVR_READ` (R357): A read of NPOVR returns and clears the overrun count. -/
  | npovrRead (region : Nat)
  /-- `PROOF_STAT_READ` (R391): A read of PROOF_STAT returns and clears FAILS. -/
  | proofStatRead (island : Nat)
  /-- `PROOF_CNT_READ` (R391): A read of PROOF_CNT returns and clears PASSES. -/
  | proofCntRead (island : Nat)
  /-- `CUR_STEP_LIMIT_READ` (R396): A read of CUR_STEP_LIMIT returns and clears STALLS. -/
  | curStepLimitRead (cluster : Nat)
  /-- `REGISTER_WRITE` (R17): An island write to a control or system register with no behaviour of its own. -/
  | registerWrite (target : RegTarget) (value : Nat)
  /-- `ILLEGAL_INSTRUCTION` (R30): A thread issues a word of an unallocated or illegal major opcode or code and takes a precise illegal-instruction trap with no other effect. -/
  | illegalInstruction (word : Nat)
  /-- `DOMAIN_STATE_WRITE` (R238): An island write of STATE in a domain table entry marks an ACTIVE domain LOST or frees a QUARANTINED one, clearing it in every cluster. -/
  | domainStateWrite (region domain value : Nat)
  /-- `ROUTE_OVR_WRITE` (R161): An island write of a ROUTE_OVR register takes effect for later headers and makes the routers route the messages held for a down link again by the new tables. -/
  | routeOvrWrite (entry value : Nat)
  /-- `PLACEMENT_IMAGE_LOAD` (R358): The island loader checks a placement image and either rejects it or builds the context area from it, moving the context from FREE to UNLOADED and setting GT_SAVED to 0. -/
  | placementImageLoad (region origin : Nat) (ports image : List Nat)
  /-- `HOST_WINDOW_ACCESS` (R412): A host or peer device access over CXL.mem or BAR2 is performed at the coherent side of an edge port, waking watches and removing reservations like an island write. -/
  | hostWindowAccess (wafer : HostFn) (pa len : Nat) (write : Option Nat)
  /-- `OXSOR_RETRANSMIT` (R417): Oxsor link retransmits a frame that has not been acknowledged so that every message arrives exactly once and in order. -/
  | oxsorRetransmit (src dst : Nat)
  /-- `ECALL` (R74): Fences, sends a system-call message to the island and sleeps until the reply. -/
  | ecall
  /-- `EBREAK` (R75): Debug-halts the thread when a debugger is attached, else raises a breakpoint trap. -/
  | ebreak
  /-- `WFI` (R76): Posts a wfi wait-table entry and sleeps. -/
  | wfi
  /-- `LONG_LATENCY_PARK_RESUME` (R24): All outstanding long-latency writes of a parked thread are performed; they become visible together and the thread runs. -/
  | longLatencyParkResume
  /-- `PORT_STREAM_WAKE` (R173): A sleeping port-form, send or stream instruction finds its elements or router acceptance and takes effect. -/
  | portStreamWake
  /-- `WFI_WAKE` (R76): A message arrival or island wake ends a wfi sleep. -/
  | wfiWake
  /-- `SLOTWAIT_BOUNDARY` (R94): The time base reaches the awaited 2^k boundary and a stalled slotwait completes. -/
  | slotwaitBoundary
  /-- `GREJOIN_REUNION` (R227): Every detached member waits in grejoin or has left, and the gathering reunites. -/
  | grejoinReunion
  /-- `GSYNC_RELEASE` (R228): The last attached member reaches gsync and all members complete it. -/
  | gsyncRelease
  /-- `MATRIX_ENTRY_START` (R130): The head entry of the matrix-unit queue starts once the previous one completed. -/
  | matrixEntryStart
  /-- `TILE_RESET` (R27): Sets all threads IDLE, all registers to reset values and wipes the scratchpad. -/
  | tileReset
  /-- `ISLAND_STOP` (R359): The island stops threads at their next boundary. -/
  | islandStop
  /-- `ISLAND_RESUME` (R350): The island resumes a stopped thread at the pc it holds. -/
  | islandResume
  /-- `ISLAND_TERMINATE_TASK` (R350): The island ends a stopped thread's task as action 1 does. -/
  | islandTerminateTask
  /-- `PORT_WORD` (R175): A port word arrives and enters the port FIFO of its arrival port. -/
  | portWord
  /-- `STREAM_DATA` (R178): Stream data arrives and enters the stream store word by word. -/
  | streamData
  /-- `TASK_RECORD` (R188): A task-record message arrives at a cluster ingress, is checked and enqueued or refused. -/
  | taskRecord
  /-- `MEMORY_RESPONSE` (R22): A memory response delivers a load's value or a write acknowledgement to the thread. -/
  | memoryResponse
  /-- `ERROR_MESSAGE` (R169): An error message reaches the source and is recorded in errword or taken as a deferred fault. -/
  | errorMessage
  /-- `BORROW_GRANT` (R240): A grant adds 2^40 to the waiting thread's held weight and GIVE() proceeds. -/
  | borrowGrant
  /-- `BORROW_REFUSAL` (R244): A refusal ends the waiting GIVE() with no weight and clears qwdomain.V. -/
  | borrowRefusal
  /-- `WATCH_WAKE` (R303): A wake carrying the granule's new value reaches a waiting bwait or cwaitge, which completes or re-registers. -/
  | watchWake
  /-- `WATCH_RETRY` (R303): A waiter whose watch registration was refused re-reads the granule every 1,024 ns. -/
  | watchRetry
  /-- `QUIESCENCE_WAKE` (R247): The root cluster's wake ends a qwait or qwdone sleep with its status. -/
  | quiescenceWake
  /-- `SYSCALL_REPLY` (R74): A system-call reply writes a0 and a1 and resumes the thread at pc + 4. -/
  | syscallReply
  /-- `DOMAIN_ALLOCATION_REPLY` (R246): The reply completes qwroot, returning old weight and taking the whole of the new domain. -/
  | domainAllocationReply
  /-- `SYSCALL_NOP` (R411): System call 0, replying 0. -/
  | syscallNop
  /-- `CLOSE` (R411): System call 2 closing a file. -/
  | closeFile
  /-- `NVQOPEN` (R418): System call 5 creating an NVMe queue pair and mapping its doorbell page. -/
  | nvqopen
  /-- `NVQCLOSE` (R411): System call 6 closing an NVMe queue. -/
  | nvqclose
  /-- `EXIT` (R411): System call 7 terminating the caller's context without a reply. -/
  | exitCall
  /-- `DBGGRANT` (R427): System call 8 setting or clearing DBG_CTL.GRANT of the caller's region. -/
  | dbggrant
  /-- `COPY_UNIT_ISSUE` (R317): The copy engine issues a unit's claims, source reads and copy data. -/
  | copyUnitIssue
  /-- `LANDING_PACKET_ARRIVAL` (R324): A landing packet enters the tile's landing queue. -/
  | landingPacketArrival
  /-- `HANDLER_START` (R324): t2 takes the head packet, checks the handler entry and starts the handler or aborts with 0x80. -/
  | handlerStart
  /-- `HANDLER_LIMIT` (R325): A handler that retires 4,096 instructions is aborted with code 0x82. -/
  | handlerLimit
  /-- `COPY_REQUEST_COMPLETE` (R318): Every unit of a request is written and released, and the engine sends its counter increment. -/
  | copyRequestComplete
  /-- `COPY_INCREMENT_ACK` (R318): The home's acknowledgement of the increment frees the FIFO slot. -/
  | copyIncrementAck
  /-- `SLICE_END_EVENT` (R200): A running task's time reaches a multiple of TASK_SLICE and a PREEMPT event is raised. -/
  | sliceEndEvent
  /-- `EVICTION_SAVE` (R366): An evicted thread, once stopped and drained, is saved into a swap slot and a resume record queued. -/
  | evictionSave
  /-- `TILE_QUARANTINE` (R352): A coordinate is made dead: retirement entries loaded, local port closed, held messages refused, records dropped. -/
  | tileQuarantine
  /-- `ROUTER_PARITY_ERROR` (R351): A router buffer parity error stops the router, takes its links down and makes the tile dead. -/
  | routerParityError
  /-- `TILE_SILENT` (R351): A tile silent on the service network for 1 ms is treated as dead. -/
  | tileSilent
  /-- `FAULT_REPORT_REARM` (R341): Writing 1 to FAULT_REPt.V clears the report and rearms the latch. -/
  | faultReportRearm
  /-- `NP_WATCHDOG` (R368): Section time reaches 4 × NP_LIMIT and the thread traps with cause 0x28. -/
  | npWatchdog
  /-- `DROOP_ALARM` (R401): A supply droop stretches 6 cycles and halves issue for 64, recording the alarm. -/
  | droopAlarm
  /-- `WAKE_ADMISSION` (R403): A new 200 ns step with room admits a stalled wake of a cold wide unit. -/
  | wakeAdmission
  /-- `DEBUG_SINGLE_STEP` (R428): The debugger executes one instruction of a halted thread and halts it again. -/
  | debugSingleStep
  /-- `DEBUG_RESUME` (R428): The debugger resumes a halted thread. -/
  | debugResume
  /-- `BREAKPOINT_HALT` (R428): A thread whose pc matches a valid BRK entry halts before that word. -/
  | breakpointHalt
  /-- `LAND_STAT_CLEAR` (R336): Writing 1 to LAND_STAT.ERR clears it. -/
  | landStatClear
  /-- `LAND_CNT_READ` (R336): A read of LAND_CNT returns and clears the drop and commit counts. -/
  | landCntRead
  /-- `DROOP_CNT_READ` (R400): A read of DROOP_CNT returns and clears the alarm count. -/
  | droopCntRead
  /-- `CLK_SRC_READ` (R382): A read of CLK_SRC returns and clears RELOCK. -/
  | clkSrcRead
  /-- `NP_LIMIT_OVERRUN` (R368): A thread's section time passes NP_LIMIT and NPOVR increments once for that section. -/
  | npLimitOverrun
  deriving DecidableEq, Repr

end Sys2Proof
end

