-- ==== Sys2Proof/Config.lean ====
section
/-!
DEFINITION. Configuration: the values the spec leaves open, as constants without a body, so that nothing can be proved from
one of them. A free value is taken at the number the step's counter `fresh` gives, and constrained only by the range the
spec names.
-/
namespace Sys2Proof.Config

/-- A free number for every use: which of the old and present words a fetch sees (01 R20), and which of the present and the admissible
older values an o read returns (13 R289). Assumption 3. -/
opaque free : Nat → Nat

/-- Does an Ed448 signature over a message verify under a key (21 R420 to R424)? The algorithm is named by the spec, not
given. Assumption 12. -/
opaque ed448Verify : (key message signature : Nat) → Bool

/-- The Ed448 signature of a message under the device key (21 R426). Assumption 12. -/
opaque ed448Sign : (message : Nat) → Nat

/-- The serial number of the device of a wafer (21 R424). -/
opaque deviceId : Nat → Nat

/-- Is a key slot of a wafer revoked (21 R425)? A fuse, for whose change the spec gives no event. -/
opaque slotRevoked : (wafer slot : Nat) → Bool

/-- What the boot after an accepted life-cycle transition finds (21 R420, R424), at the number the step's counter gives. Assumption 50. -/
opaque selfTest : (wafer n : Nat) → SelfTest

/-- The one-way delay in ps that the link at a port of a tile measures at a time (18 R384). -/
opaque linkDelay : (tile port now : Nat) → BitVec 20

/-- SHAKE256 with a 64-byte output (21 R425, R426): the algorithm is named by the spec, not given. Assumption 12. -/
opaque shake256 : List Nat → Nat

/-- Does the island operating system require signed placement images (21 R425)? Assumption 12. -/
opaque signedImages : Bool

/-- Is a namespace of a number attached, and how many bytes has one of its blocks (20 R418)? The controllers are not part of the spec. -/
opaque namespaceBlock : Nat → Option Nat

end Sys2Proof.Config
end

