-- ==== Sys2Proof/Machine/Memory.lean ====
section
/-!
DEFINITION. Memory: a list of (key, byte) pairs with strictly rising keys and no byte that equals what an unlisted key
reads as. An unlisted key reads as 0: the scratchpads are wiped to zero by every reset (01 R27); edge memory has no reset
value in the spec and reads 0 here (DESIGN CHOICE, assumption 2).

Keys. Scratchpad byte o of the tile with number g is key g · 2^17 + o (12 R264); the byte of edge memory with system
physical address a on wafer w is key 2^50 + w · 2^44 + a (12 R269, 20 R414).
-/
namespace Sys2Proof.Machine

abbrev Memory := List Host.Cell

/-- What an unlisted key reads as. -/
def blankByte : Byte := 0

def Memory.read (m : Memory) (a : Nat) : Byte :=
  match m with
  | [] => blankByte
  | (j, b) :: r => if j = a then b else Memory.read r a

/-- Insertion into a list from which the key has been removed. -/
def Memory.insert (m : Memory) (a : Nat) (b : Byte) : Memory :=
  match m with
  | [] => [(a, b)]
  | (j, c) :: r => if a < j then (a, b) :: (j, c) :: r else (j, c) :: Memory.insert r a b

def Memory.write (m : Memory) (a : Nat) (b : Byte) : Memory :=
  let r := m.filter (fun c => c.1 != a)
  if b = blankByte then r else Memory.insert r a b

/-- The canonical form. -/
def Memory.wf (m : Memory) : Bool :=
  match m with
  | [] => true
  | [(_, b)] => b != blankByte
  | (i, b) :: (j, c) :: r => b != blankByte && decide (i < j) && Memory.wf ((j, c) :: r)

/-- `n` bytes from key `a` on. -/
def Memory.readBytes (m : Memory) (a n : Nat) : List Byte := (List.range n).map (fun i => m.read (a + i))

def Memory.writeBytes (m : Memory) (a : Nat) (bs : List Byte) : Memory :=
  match bs with
  | [] => m
  | b :: r => Memory.writeBytes (m.write a b) (a + 1) r

/-- Bytes as a number, least significant first (00 R2). -/
def bytesNat (bs : List Byte) : Nat :=
  match bs with
  | [] => 0
  | b :: r => b.toNat + 256 * bytesNat r

/-- The `n` low bytes of a number, least significant first. -/
def natBytes (n v : Nat) : List Byte :=
  match n with
  | 0 => []
  | n + 1 => BitVec.ofNat 8 v :: natBytes n (v / 256)

def Memory.readNat (m : Memory) (a n : Nat) : Nat := bytesNat (m.readBytes a n)
def Memory.writeNat (m : Memory) (a n v : Nat) : Memory := m.writeBytes a (natBytes n v)

/-- `n` zero bytes from key `a` on. -/
def Memory.wipe (m : Memory) (a n : Nat) : Memory := m.filter (fun c => !(decide (a ≤ c.1) && decide (c.1 < a + n)))

/-- Key of a scratchpad byte. -/
def padKey (g off : Nat) : Nat := g * 131072 + off
/-- Key of a byte of edge memory. -/
def edgeKey (wafer pa : Nat) : Nat := 1125899906842624 + wafer * 17592186044416 + pa

end Sys2Proof.Machine
end

