-- ==== Sys2Proof/Machine/Tab.lean ====
section
/-!
DEFINITION. Sparse tables: the data of many like things, keyed by number, of which only the touched ones are listed.

A thing that is not listed is at the default the reader names, which is everywhere the thing's reset value. The laws
(Sys2Proof/Laws/Tab.lean) hold for every list: a read after a write to the same key gives the value written, and a write
leaves every other key alone.
-/
namespace Sys2Proof.Machine

/-- A table from numbers to things. -/
abbrev Tab (α : Type) := List (Nat × α)

def Tab.find {α : Type} (t : Tab α) (k : Nat) : Option α :=
  match t with
  | [] => none
  | (j, v) :: r => if j = k then some v else Tab.find r k

def Tab.look {α : Type} (t : Tab α) (k : Nat) (d : α) : α :=
  match t with
  | [] => d
  | (j, v) :: r => if j = k then v else Tab.look r k d

def Tab.put {α : Type} (t : Tab α) (k : Nat) (v : α) : Tab α :=
  match t with
  | [] => [(k, v)]
  | (j, w) :: r => if k < j then (k, v) :: (j, w) :: r else if j = k then (k, v) :: r else (j, w) :: Tab.put r k v

/-- Back to the default. -/
def Tab.del {α : Type} (t : Tab α) (k : Nat) : Tab α := t.filter (fun p => p.1 != k)

def Tab.modify {α : Type} (t : Tab α) (k : Nat) (d : α) (f : α → α) : Tab α := t.put k (f (t.look k d))

/-- Fold a function over the numbers 0 to n − 1. -/
def upTo {α : Type} (n : Nat) (f : Nat → α → α) (a : α) : α := (List.range n).foldl (fun acc i => f i acc) a

/-- Insertion behind the elements that `before` puts first. -/
def insertBy {α : Type} (before : α → α → Bool) (a : α) : List α → List α
  | [] => [a]
  | b :: r => if before a b then a :: b :: r else b :: insertBy before a r

/-- A list in the order of `before`; elements that it does not tell apart keep their order. -/
def sortBy {α : Type} (before : α → α → Bool) : List α → List α
  | [] => []
  | a :: r => insertBy (fun x y => !before y x) a (sortBy before r)

/-- The `i`-th element of a list, or a default. -/
def nth {α : Type} (l : List α) (i : Nat) (d : α) : α := l.getD i d

end Sys2Proof.Machine
end

