-- ==== Sys2Proof/Machine/State.lean ====
section
/-!
DEFINITION. The state of the whole wafer system: plain data, sparse, with every entity that nothing has touched at its
reset value. INVENTORY.md lists each field with the rule of the spec that names it and its reset value.

Numbers. A tile is wafer · 589,824 + y · 768 + x (the quotient of 04 R90's thread number). A cluster is wafer · 3,072 + cy · 48 +
cx; an island wafer · 48 + its block number; a region wafer · 256 + id. A home is a tile's number, or 2^26 + wafer · 128 +
port for an edge port, or 2^27 + island for an island user window (12 R262, R270).
-/
namespace Sys2Proof.Machine

/-- Thread states (01 R6). `chosen` marks a thread a decision has reserved (08 R198). -/
inductive TState where
  | idle | running | parked | sleeping | stopped
  deriving DecidableEq, Repr

/-- The wait-table entry of a thread, once posted (10 R254). -/
structure WaitEntry where
  kind : Nat
  addr : Nat
  value : Nat
  posted : Nat
  deriving DecidableEq, Repr

/-- The hardware loop and repeat CSRs (01 R12, 04 R80 to R87). -/
structure Loop where
  lpa : Bool := false
  repa : Bool := false
  repdone : Nat := 0
  count : Word64 := 0
  start : Nat := 0
  last : Nat := 0
  deriving DecidableEq, Repr

/-- `errword` (01 R13, R14). -/
structure ErrWord where
  v : Bool := false
  ovf : Bool := false
  cause : Nat := 0
  name : Nat := 0
  deriving DecidableEq, Repr

/-- A stream binding (07 R179). -/
structure QBind where
  v : Bool := false
  vc : Nat := 0
  src : Nat := 0
  deriving DecidableEq, Repr

/-- What a pending long-latency write still needs (01 R23). -/
inductive PendNeed where
  /-- nothing: the value is known -/
  | done
  /-- `qpopv`: the captured binding; words are still to be consumed -/
  | words (b : QBind)
  /-- `macc.row`: the matrix-unit entry with this serial number must have completed -/
  | row (serial : Nat)
  deriving DecidableEq, Repr

/-- A pending long-latency write (01 R25). -/
structure Pend where
  toV : Bool
  reg : Nat
  value : Nat
  consumed : Nat
  need : PendNeed
  /-- the later write of R25 has discarded the register write; a `qpopv` still consumes its words -/
  dropped : Bool
  deriving DecidableEq, Repr

/-- Where the value of an outstanding access goes. -/
inductive OutDst where
  | nowhere
  /-- an x register; `width` bytes, sign-extended or not -/
  | x (rd width : Nat) (signed : Bool)
  | f (rd : Nat)
  /-- the active lanes of a v register, gathered in `buf` -/
  | v (vd : Nat) (buf : VWord)
  /-- a read whose task has ended: its value goes nowhere (16 R345) -/
  | gone
  /-- `ctest`: 1 if the value is at least the target -/
  | test (rd target : Nat)
  /-- `bwait` and `cwaitge`: the value decides whether the thread wakes -/
  | watch
  deriving DecidableEq, Repr

/-- One access of an instruction: its home, its class (i 8, o 4, r 2, w 1; 02 R37) and its lane, 16 · byte lane + size for the element of
a vector instruction and 0 for a scalar access. -/
structure OutPart where
  home : Nat
  cls : Nat
  lane : Nat
  deriving DecidableEq, Repr

/-- The accesses of an instruction that has been issued and is not complete (13 R281). -/
structure Out where
  id : Nat
  /-- the accesses that are not complete, one for each answer awaited -/
  parts : List OutPart
  dst : OutDst
  /-- an acquire, which holds back later accesses until it is complete (13 R285) -/
  aq : Bool
  pc : Word64
  word : Nat
  /-- the flat addresses of the access, each with the lane of its element (0 for a scalar access) -/
  flats : List (Nat × Nat)
  issued : Nat
  /-- an instruction's ordering of leaven returns counts only stores, atomics, joins and sends (10 R243) -/
  posted : Bool
  /-- injected anew for a restored thread (17 R361) -/
  replay : Bool := false
  /-- the lowest element that has failed, with cause and SUB (16 R339) -/
  bad : Option (Nat × Nat × Nat) := none
  /-- REPDONE of the word's repeat, plus 1; 0 for a word that no `rep` repeats (16 R341) -/
  rep : Nat := 0
  deriving DecidableEq, Repr

/-- The order that a `fencex` still imposes after the thread has passed it (13 R287): until the accesses named here are complete, no access
of a class in `succ` issues to a home in the scope. -/
structure FenceOrder where
  /-- accesses with an answer, by id and home, and messages, by SEQ, that are waited for -/
  ids : List (Nat × Nat)
  seqs : List Nat
  /-- the last matrix entry waited for -/
  serial : Nat
  pred : Nat
  succ : Nat
  scope : Nat
  deriving DecidableEq, Repr

/-- The identity of an 8 KiB-or-larger translation (12 R276). -/
structure XlEntry where
  region : Nat
  asid : Nat
  vpn : Nat
  /-- page size 4 KiB · 512^level -/
  level : Nat
  ppn : Nat
  r : Bool
  w : Bool
  deriving DecidableEq, Repr

/-- What an access needs of its translation (12 R274). An island user window takes loads and stores alone (12 R271). -/
inductive AccKind where
  | read | write
  /-- a read that no island user window takes: LR, of a barrier word, of a counter, by an engine (14 R295) -/
  | probe
  /-- an AMO, or an engine's write -/
  | amo
  deriving DecidableEq, Repr

/-- A walk in progress (12 R275). -/
structure Walk where
  /-- the thread, or 3 for the copy engine -/
  thread : Nat
  /-- the copy entry's serial, for the engine -/
  entry : Nat
  addr : Nat
  kind : AccKind
  size : Nat
  deriving DecidableEq, Repr

/-- A task record and what the hardware keeps with it (08 R180, R186, R211). -/
structure TaskRec where
  frame : Nat
  dw1 : Nat
  dw2 : Nat
  /-- target: local tile index, or none for SPREAD = 1 -/
  target : Option Nat
  enqueued : Nat
  /-- guest time of its region at the enqueue (08 R195) -/
  guest : Nat
  /-- MODEL: `perf` when the record was sent (01 R20) -/
  sent : Nat
  /-- a record's class of admission: reserved places allowed (08 R183) -/
  reserved : Bool
  /-- an evicted task's swap slot (17 R366) -/
  resume : Option Nat
  deriving DecidableEq, Repr

/-- The running task of a thread (08 R195). -/
structure TaskInfo where
  tr : TaskRec
  /-- guest time and time base at the start (08 R195, R200) -/
  started : Nat
  begun : Nat
  /-- slice ends raised since the start (08 R200) -/
  slices : Nat
  deriving DecidableEq, Repr

/-- Membership states of a wide thread (09 R234). -/
inductive Role where
  | solo | leader | attached | detached | left
  deriving DecidableEq, Repr

/-- One word of the forwarded stream: the word, its offset, the leader's next offset (09 R224, R226). -/
structure FwdWord where
  word : Nat
  off : Nat
  next : Nat
  deriving DecidableEq, Repr

structure Gather where
  role : Role := .solo
  index : Nat := 0
  size : Nat := 1
  /-- the leader's tile -/
  leader : Nat := 0
  buf : List FwdWord := []
  /-- the gathering has dissolved under a detached follower (09 R229) -/
  dissolved : Bool := false
  deriving DecidableEq, Repr

/-- The wait of GIVE() (10 R240). -/
inductive GiveWait where
  | none | asked | granted | refused
  deriving DecidableEq, Repr

/-- A repeat in progress: the stepped word that runs next, what each step adds to it, the count, and S of the target (04 R86). -/
structure RepRun where
  word : Nat
  delta : Nat
  count : Nat
  sW : Bool
  deriving DecidableEq, Repr

/-- Why the thread is to stop, or is held STOPPED (01 R6, 16 R343, 17 R359, R368). -/
structure StopReq where
  slice : Bool := false
  evict : Bool := false
  island : Bool := false
  tileStop : Bool := false
  debug : Bool := false
  leader : Bool := false
  /-- a fault of the tile's other thread, in a section or not -/
  fault : Bool := false
  /-- cause, SUB and address of the leader's fault with which the thread stops, for its own report (16 R349; DEDUCED, assumption 105) -/
  report : Option (Nat × Nat × Nat) := none
  deriving DecidableEq, Repr

/-- How a thread's run at its own traps is being debugged (04 R75, 21 R428). -/
structure DebugSt where
  halted : Bool := false
  atEbreak : Bool := false
  atBrk : Bool := false
  pcWritten : Bool := false
  stepping : Bool := false
  /-- the pcs of the last 64 taken control transfers, oldest first (DESIGN CHOICE, assumption 112) -/
  trace : List Nat := []
  deriving DecidableEq, Repr

/-- A trap whose thread cannot stop yet (05 R106): its report's fields. -/
structure DueTrap where
  cause : Nat
  sub : Nat
  addr : Nat
  pc : Word64
  insn : Nat
  eng : Bool
  /-- as the access's (16 R341) -/
  rep : Nat := 0
  deriving DecidableEq, Repr

/-- General and special registers of a thread (01 R7, R11 to R13). -/
structure Regs where
  x : Tab Word64 := []
  f : Tab Word32 := []
  pc : Word64 := 0
  fflags : Nat := 0
  frm : Nat := 0
  instret : Nat := 0
  mvc : Nat := 0
  mstrideA : Nat := 0
  mstrideB : Nat := 0
  csrcS1 : Word64 := 0
  csrcS2 : Word64 := 0
  cdstS1 : Word64 := 0
  cdstS2 : Word64 := 0
  loop : Loop := {}
  fxflags : Nat := 0
  qwV : Bool := false
  qwDom : Nat := 0
  qbind : Tab QBind := []
  errword : ErrWord := {}
  /-- held leaven weight H (10 R239) -/
  weight : Nat := 0
  s0 : Word64 := 0
  s1 : Word64 := 0
  deriving DecidableEq, Repr

/-- An old content of a scratchpad word: its value, when it was replaced, and whether by the thread itself (01 R20). -/
structure StaleWord where
  old : Nat
  at_ : Nat
  own : Bool
  deriving DecidableEq, Repr

/-- What the hardware keeps of a thread's run. -/
structure Run where
  ts : TState := .idle
  /-- the state to which an island resume returns (01 R6) -/
  heldTs : TState := .idle
  chosen : Bool := false
  task : Option TaskInfo := none
  /-- region last served and region the generator was seeded for (01 R28, 04 R90) -/
  lastRegion : Option Nat := none
  seeded : Option Nat := none
  pend : List Pend := []
  outs : List Out := []
  lrAddr : Option Nat := none
  npd : Nat := 0
  secTime : Nat := 0
  npOver : Bool := false
  wait : Option WaitEntry := none
  seq : Nat := 0
  rep : Option RepRun := none
  xl : List XlEntry := []
  give : GiveWait := .none
  /-- the current instruction's progress through its own waits -/
  phase : Nat := 0
  phaseVal : Nat := 0
  /-- the current instruction has been forwarded (09 R224) -/
  fwdDone : Bool := false
  /-- the last element of the current instruction has been consumed or its answer has come -/
  answer : Option Nat := none
  /-- scratchpad words whose old contents the fetch may still see (01 R20) -/
  stale : Tab (List StaleWord) := []
  /-- MODEL: writes before this `perf` are known complete to the thread's fetches (01 R20) -/
  acq : Nat := 0
  /-- MODEL: `perf` at the write whose value a register holds from a read that nothing has depended on yet, by `RegRef.key`; and at the
  latest that the reads of a home have returned, by home and class, which a fence orders (01 R20) -/
  seen : Tab Nat := []
  readAt : Tab Nat := []
  /-- MODEL: `perf` at the last o refresh point, and at the oldest content that an o read of a granule may still return (13 R289) -/
  oacq : Nat := 0
  /-- MODEL: the same for single edge ports, where a fence's scope did not hold every port -/
  oports : Tab Nat := []
  oseen : Tab Nat := []
  /-- when the watch of a `bwait` or `cwaitge` was last asked for (14 R303) -/
  watchAt : Nat := 0
  stop : StopReq := {}
  /-- the thread has trapped, or an access of it has failed, and it has not run since (16 R338) -/
  failed : Bool := false
  accFailed : Bool := false
  /-- traps that the thread takes once it can stop, in the order found -/
  due : List DueTrap := []
  /-- orders of fences that the thread has passed (13 R287) -/
  fences : List FenceOrder := []
  dbg : DebugSt := {}
  gather : Gather := {}
  deriving DecidableEq, Repr

structure Thread where
  r : Regs := {}
  run : Run := {}
  deriving DecidableEq, Repr

/-! Messages (07 R156, R157). The payload is the data of the kinds, not its bits. -/

/-- Operations a home performs (12, 13, 14). -/
inductive ReqOp where
  | load (signed : Bool)
  | store
  | amo (op : AmoOp)
  | lr
  | sc
  | barrive
  | jdec
  | watch (registering : Bool)
  | claim
  | increment
  /-- an engine's source read -/
  | fetch
  deriving DecidableEq, Repr

structure MemReq where
  op : ReqOp
  /-- home-local address: window · 2^20 + offset at a tile, module byte at an edge port, offset at an island window -/
  addr : Nat
  size : Nat
  data : Nat
  /-- issuing thread's outstanding-access id, or the engine's unit id -/
  id : Nat
  /-- byte lane of a vector register that the answer fills -/
  lane : Nat
  /-- SC: the flat address the thread kept from its LR matches -/
  local_ : Bool
  /-- streaming side, path 0x02 -/
  stream : Bool
  /-- aq or rl, and whether an answer with a value is awaited -/
  awaited : Bool
  deriving DecidableEq, Repr

/-- The header flit of a message (07 R156). -/
structure Header where
  dst : Nat
  src : Nat
  vc : Nat
  kind : Nat
  lv : Bool
  lexp : Nat
  len : Nat
  region : Nat
  handler : Nat
  seq : Nat
  sthr : Nat
  aux : Nat
  deriving DecidableEq, Repr

inductive Payload where
  /-- a port word, and the port it arrived through, set by the last router (07 R175) -/
  | portWord (v : Word64) (port : Nat)
  | stream (ws : List Word64)
  /-- a record; the engine that wrote it to window 8 also keeps its unit's number plus 1, any other sender 0 -/
  | task (frame dw1 dw2 unit : Nat)
  | mem (q : MemReq)
  /-- an answer; `at_` is `perf` at the write whose value the home read (01 R20) -/
  | resp (id lane value : Nat) (poisoned : Bool) (at_ : Nat)
  | copyLine (addr : Nat) (mask data : Nat) (unit : Nat)
  | packet (addr bytes data row : Nat) (unit : Nat)
  | leavenReturn (op dom : Nat)
  | borrow (op dom thread : Nat)
  /-- reason, the refused header (07 R169), and which request of the source it belonged to -/
  | error (reason : Nat) (hdr : Header) (id lane : Nat) (awaited : Bool) (cls : Nat)
  /-- a watch's wake: the granule's flat address at its home and its new value (14 R303) -/
  | wake (id value : Nat)
  /-- the root cluster's wake of a `qwait` or `qwdone`, with the domain's state (10 R247) -/
  | quiet (dom status : Nat)
  /-- a system-call message (04 R74): a0 to a7 and the pc -/
  | syscall (args : List Nat) (pc : Nat)
  /-- an allocation request for a domain (10 R246) -/
  | allocate
  | callReply (a0 status : Nat)
  deriving DecidableEq, Repr

/-- A message: the header fields of 07 R156. `srcHome` and `dstHome` are the numbers of the homes named. -/
structure Msg where
  dst : Nat
  src : Nat
  dstHome : Nat
  srcHome : Nat
  vc : Nat
  kind : Nat
  lv : Bool
  lexp : Nat
  len : Nat
  region : Nat
  handler : Nat
  seq : Nat
  sthr : Nat
  aux : Nat
  body : Payload
  /-- the output the router that holds the message chose at its arrival: port 0 to 3, 4 ejection, 5 discard; escape buffer; by an
  override entry (07 R158, R160); of an ejected message, the input port and buffer it came from -/
  route : Option (Nat × Bool × Bool) := none
  /-- MODEL: `perf` at the injection (01 R20) -/
  sent : Nat := 0
  /-- at a tile that has ejected it: how many matrix entries had been queued there by then (06 R145) -/
  seen : Nat := 0
  /-- since when it has been outside its region's clusters (17 R360) -/
  left : Option Nat := none
  deriving DecidableEq, Repr

/-! Engines of a tile. -/

/-- A matrix-unit instruction with its captured operands (06 R131). -/
structure MatEntry where
  serial : Nat
  word : Nat
  instr : Instr
  pc : Word64
  /-- X[rs1] and X[rs2], and the scratchpad offsets they name -/
  x1 : Word64
  x2 : Word64
  a : Nat
  b : Nat
  sa : Nat
  sb : Nat
  scaleB : Nat
  scaleA : VWord
  recBytes : List Byte
  /-- as an access's (16 R341) -/
  rep : Nat
  /-- the members of a gang form, leader first; none for a tile's own product (06 R139) -/
  gang : List Nat
  /-- spans of scratchpad bytes read and written: offset and length (06 R137) -/
  reads : List (Nat × Nat)
  writes : List (Nat × Nat)
  deriving DecidableEq, Repr

/-- States of a copy request (15 R337). -/
inductive CopyState where
  | accepted | issuing | landing | increment
  deriving DecidableEq, Repr

structure CopyEntry where
  serial : Nat
  thread : Nat
  pc : Word64
  word : Nat
  w0 : Nat
  w1 : Nat
  w2 : Nat
  w3 : Nat
  s1 : Nat
  s2 : Nat
  d1 : Nat
  d2 : Nat
  /-- weight the copy holds, and its domain -/
  share : Nat
  dom : Nat
  /-- a borrow of the engine for the records of a window 8 copy (15 R319) -/
  give : GiveWait
  /-- units issued (PROG), and elements of the walk in them -/
  prog : Nat
  cur : Nat
  st : CopyState
  /-- the id of the increment, once sent -/
  incId : Nat
  /-- translations made for the unit that is about to issue -/
  xl : List XlEntry
  region : Nat
  deriving DecidableEq, Repr

/-- A unit whose claims have been sent and whose write has not been performed (15 R317). -/
structure CopyUnit where
  id : Nat
  serial : Nat
  /-- the row, i1 + E1 · i2, of a packet -/
  row : Nat
  home : Nat
  dstName : Nat
  /-- destination of the first byte at its home; number of bytes -/
  addr : Nat
  bytes : Nat
  data : Nat
  /-- source reads outstanding; place in the unit and flat address of each -/
  left : Nat
  srcs : List (Nat × Nat)
  region : Nat
  /-- handler of a packet, 0 for another unit -/
  hid : Nat
  /-- a unit of a window 8 copy -/
  task : Bool
  /-- a read or claim was refused: the unit ends without data -/
  failed : Bool
  sent : Bool
  deriving DecidableEq, Repr

/-- A landing packet at its tile (15 R324). -/
structure Packet where
  addr : Nat
  bytes : Nat
  data : Nat
  row : Nat
  unit : Nat
  src : Nat
  srcHome : Nat
  region : Nat
  hid : Nat
  /-- SEQ and STHR of its message, which the answer copies (07 R156) -/
  seq : Nat
  sthr : Nat
  deriving DecidableEq, Repr

/-- A stored stream word (07 R178). -/
structure StreamWord where
  word : Word64
  vc : Nat
  src : Nat
  /-- MODEL: `perf` when it was sent (01 R20) -/
  sent : Nat := 0
  deriving DecidableEq, Repr

/-- An access that has been issued and not injected (17 R361): its message, the flat address, and whether it is a replay entry of a
restored thread, which translates anew. -/
structure Unsent where
  msg : Msg
  flat : Nat
  replay : Bool
  /-- its class (02 R37), for the fences that its thread has passed; 0 for a message of the engine -/
  cls : Nat
  deriving DecidableEq, Repr

/-- A latched report (16 R341). -/
structure FaultRep where
  v : Bool := false
  eng : Bool := false
  gang : Bool := false
  det : Bool := false
  index : Nat := 0
  np : Bool := false
  rep : Bool := false
  repdone : Nat := 0
  cause : Nat := 0
  sub : Nat := 0
  region : Nat := 0
  thread : Nat := 0
  seq : Nat := 0
  name : Nat := 0
  pc : Nat := 0
  insn : Nat := 0
  addr : Nat := 0
  time : Nat := 0
  held : Nat := 0
  stoppc : Nat := 0
  wait : List Nat := []
  deriving DecidableEq, Repr

/-- The registers of t0 that stay with the tile, and its shared registers (01 R7, R12). -/
structure TileRegs where
  v : Tab VWord := []
  p : Tab Word64 := []
  /-- accumulator pair hi, lo at key 256 · accumulator + 16 · i + j -/
  acc : Tab (Word32 × Word32) := []
  lhtbase : Nat := 0
  deriving DecidableEq, Repr

/-- The engines: matrix unit, streams, copy engine, landing thread's unit, translation cache. -/
structure Engines where
  mq : List MatEntry := []
  mqSerial : Nat := 0
  mprogV : Bool := false
  mprogAcc : Nat := 0
  mprogRows : Nat := 0
  store : List StreamWord := []
  /-- port words, each with `perf` when it was sent (MODEL, 01 R20) -/
  fifo : Tab (List (Word64 × Nat)) := []
  copies : List CopyEntry := []
  copySerial : Nat := 0
  units : List CopyUnit := []
  landQ : List Packet := []
  landNow : Option Packet := none
  landBuf : Nat := 0
  landCl : Nat := 0
  landErr : Bool := false
  landCode : Nat := 0
  landHid : Nat := 0
  landSrc : Nat := 0
  landDrops : Nat := 0
  landCommits : Nat := 0
  xlat : List XlEntry := []
  walks : List Walk := []
  /-- leaven returns waiting for earlier accesses (10 R243): thread, weight bit, domain, ids waited for -/
  returns : List (Nat × Nat × Nat × List Nat) := []
  nextId : Nat := 0
  /-- accesses issued and not injected, in issue order -/
  unsent : List Unsent := []
  deriving DecidableEq, Repr

/-- The router of a coordinate (07 R150 to R168). -/
structure Router where
  /-- buffer of input port (0 N, 1 E, 2 S, 3 W, 4 local), VC and main or escape: key port · 32 + vc · 2 + escape -/
  bufs : Tab (List Msg) := []
  ovr : Tab Word64 := []
  nameRet : Tab Word64 := []
  linkDown : Tab Bool := []
  linkUnused : Tab Bool := []
  retries : Tab Nat := []
  /-- consecutive failed replays of one flit -/
  replays : Tab Nat := []
  /-- of each output (4 the ejection): the program VC served last, and how many messages of VCs 12 to 15 in a row (07 R154) -/
  turn : Tab Nat := []
  streak : Tab Nat := []
  closed : Bool := false
  stoppedRouter : Bool := false
  deriving DecidableEq, Repr

/-- The tile's standing with its island, and its clock and debug registers. -/
structure TileCtl where
  /-- current generation, once it differs from its wafer's (07 R166) -/
  gen : Option Nat := none
  stopped : Bool := false
  quarantined : Bool := false
  dead : Bool := false
  hole : Bool := false
  proofing : Bool := false
  proofDue : Bool := false
  /-- the tile has lost the lock that its wafer's boot gave it (18 R384) -/
  clkLost : Bool := false
  /-- the source port of its last clock switch; before one, what its wafer's boot chose (18 R382, R383) -/
  clkSrc : Option Nat := none
  /-- its clock repeater has stopped since the boot -/
  clkStop : Bool := false
  clkRelock : Nat := 0
  reps : Tab FaultRep := []
  repSeq : Nat := 0
  droopThr : Nat := 6
  droopCnt : Nat := 0
  droopLast : Nat := 0
  /-- the stretch in progress: since when, and how much of the clock it may still take; what earlier ones have taken; in 1/2000 of a cycle
  (19 R401) -/
  droopFrom : Nat := 0
  droopLeft : Nat := 0
  lostU : Nat := 0
  vecWarm : Bool := false
  matWarm : Bool := false
  vecUsed : Nat := 0
  matUsed : Nat := 0
  /-- threads whose instruction waits for a wake (19 R403): whether it has had the vector unit's, which is kept for it, and whether it needs the
  matrix unit -/
  wakeHold : Tab (Bool × Bool) := []
  /-- when the tile's last proofing pass fell due (18 R391) -/
  proofAt : Nat := 0
  brk : Tab Word64 := []
  /-- the island has stopped the tile: no handler starts (01 R6, 15 R335) -/
  landStop : Bool := false
  poison : Tab Bool := []
  /-- correctable errors (16 R351) -/
  corrected : Nat := 0
  /-- when the coordinate's name was last retired, in ns -/
  retiredAt : Nat := 0
  deriving DecidableEq, Repr

structure Tile where
  thr : Tab Thread := []
  r : TileRegs := {}
  e : Engines := {}
  rt : Router := {}
  c : TileCtl := {}
  deriving DecidableEq, Repr

/-! Homes. -/

/-- A claim held on a 64-byte line (13 R291). -/
structure Claim where
  line : Nat
  srcHome : Nat
  unit : Nat
  deriving DecidableEq, Repr

structure Reservation where
  granule : Nat
  srcHome : Nat
  thread : Nat
  deriving DecidableEq, Repr

structure Watch where
  granule : Nat
  src : Nat
  srcHome : Nat
  thread : Nat
  id : Nat
  deriving DecidableEq, Repr

/-- Forwarding entry of an edge port (17 R374): chunk, destination, lines moved, all moved. -/
structure Forward where
  v : Bool := false
  fwd : Bool := false
  chunk : Nat := 0
  target : Nat := 0
  moved : Nat := 0
  deriving DecidableEq, Repr

structure HomeSt where
  /-- messages ejected here and not yet performed, in arrival order -/
  inbox : List Msg := []
  /-- answers and control messages of its hardware that wait for room at its router, oldest first (07 R154) -/
  outbox : List Msg := []
  claims : List Claim := []
  resv : List Reservation := []
  watches : List Watch := []
  /-- watches that died with their home: nothing wakes them (14 R304) -/
  lost : List Watch := []
  forwards : Tab Forward := []
  /-- access table of an edge port or island window, entry per source region: bits C, L, W, R (17 R372) -/
  access : Tab Nat := []
  deriving DecidableEq, Repr

/-! Clusters. -/

/-- A queued record; `spill` is its place in the spill ring (08 R184). -/
structure QRec where
  tr : TaskRec
  spill : Option Nat
  ripe : Nat
  deriving DecidableEq, Repr

/-- A pending event of the policy engine (08 R200). -/
structure PEvent where
  kind : Nat
  thread : Nat
  queue : Nat
  cause : Nat
  cls : Nat
  deriving DecidableEq, Repr

/-- A domain table entry (10 R237). -/
structure DomEntry where
  state : Nat := 0
  here : Bool := false
  root : Nat := 0
  home : Int := 0
  deriving DecidableEq, Repr

structure Cluster where
  queues : Tab (List QRec) := []
  events : List PEvent := []
  recipeAct : Nat := 0
  recipeDis : Bool := false
  recipeFail : Bool := false
  qstatOvf : Bool := false
  prepared : Option (Nat × Nat) := none
  prepAck : Bool := false
  goAhead : Bool := false
  img : Tab Nat := []
  ent : Tab Nat := []
  ageLimit : Nat := 1024
  ageOvr : Nat := 0
  overruns : Nat := 0
  overrunTimes : List Nat := []
  timerCfg : Nat := 0
  timerLast : Nat := 0
  taskSlice : Nat := 0
  qspill : Nat := 0
  budget : Tab Nat := []
  scratch : Tab Nat := []
  lright : Tab Nat := []
  access : Tab Nat := []
  region : Nat := 0
  domains : Tab DomEntry := []
  /-- borrow requests that wait for HOME to rise (10 R244) -/
  borrows : List Msg := []
  /-- watchers of `qwait` and `qwdone`: domain, tile, thread -/
  quietWatch : List (Nat × Nat × Nat) := []
  mhz : Nat := 1000
  eff : Nat := 1000
  /-- what its clock had counted when EFF last changed, in 1/2000 of a cycle, and when that was -/
  cycAnchor : Nat := 0
  timeAnchor : Nat := 0
  stepN : Nat := 64
  stalls : Nat := 0
  stepStart : Nat := 0
  wakes : Nat := 0
  /-- stalled wakes, oldest first (19 R403) -/
  stallQ : List Nat := []
  /-- the spare physical row in use: the logical row it replaces (18 R386) -/
  spareRow : Option Nat := none
  badRows : List Nat := []
  defRow : Nat := 15
  off : Bool := false
  deriving DecidableEq, Repr

/-! Islands and regions. -/

/-- An entry in a controller queue: command identifier, opcode, force unit access, first block and number of blocks, and the physical runs of its
data as address and length (20 R418). -/
structure NvmeCmd where
  cid : Nat
  op : Nat
  fua : Bool
  lba : Nat
  blocks : Nat
  runs : List (Nat × Nat)
  deriving DecidableEq, Repr

/-- An NVMe queue pair as its doorbells, its island and its controller leave it (20 R418). -/
structure NvmeQueue where
  opened : Bool := false
  region : Nat := 0
  ns : Nat := 0
  size : Nat := 0
  sqVa : Nat := 0
  cqVa : Nat := 0
  /-- the values last written to the doorbells -/
  sqTail : Nat := 0
  cqHead : Nat := 0
  /-- entries submitted; completions written, with their phase; completions the tenant has consumed -/
  sqHead : Nat := 0
  cqTail : Nat := 0
  phase : Bool := true
  cqSeen : Nat := 0
  ctrl : List NvmeCmd := []
  deriving DecidableEq, Repr

/-- What a hang trap reports: the region, the time base, and the posted wait-table entries of the region (10 R258). -/
structure HangRep where
  region : Nat
  time : Nat
  waits : List Nat
  deriving DecidableEq, Repr

structure Island where
  invVa : Nat := 0
  invN : Nat := 0
  invBusy : Bool := false
  invDone : Bool := false
  invIe : Bool := false
  invScope : Nat := 0
  invAsid : Nat := 0
  /-- the captured request and the tiles that have not acknowledged -/
  invReq : Option (Nat × Nat × Nat × Nat) := none
  invWait : List Nat := []
  invTold : List Nat := []
  ring : List FaultRep := []
  hangs : List HangRep := []
  notices : List (Nat × Nat) := []
  heldRecs : List (Nat × TaskRec) := []
  proofEn : Bool := true
  proofPeriod : Nat := 600000
  proofFails : Nat := 0
  proofLast : Nat := 0
  proofCnt : Nat := 0
  railMv : Nat := 850
  railBusy : Bool := false
  railNext : Nat := 0
  nvme : Tab NvmeQueue := []
  vfBind : Tab Nat := []
  /-- its block is out of service (21 R420) -/
  failed : Bool := false
  /-- correctable errors of its memory (20 R419) -/
  corrected : Nat := 0
  ovr : Tab Word64 := []
  deriving DecidableEq, Repr

/-- A saved context: what a LOAD restores (17 R363 to R366). -/
structure Saved where
  tiles : List (Nat × Tile) := []
  clusters : List (Nat × Cluster) := []
  pads : List Host.Cell := []
  /-- the records of its queues that the islands hold (08 R185, 17 R360), by cluster -/
  held : List (Nat × TaskRec) := []
  deriving DecidableEq, Repr

/-- An evicted task in its swap slot (17 R366): the thread, and for t0 the tile registers and the matrix entries. -/
structure Swapped where
  tile : Nat
  thread : Nat
  saved : Thread
  tregs : TileRegs
  mq : List MatEntry
  mprogV : Bool
  mprogAcc : Nat
  mprogRows : Nat
  copies : List CopyEntry
  /-- accesses issued and not injected, its replay entries (17 R361) -/
  unsent : List Unsent
  members : List (Nat × Nat)
  deriving DecidableEq, Repr

structure Region where
  xlatMode : Nat := 0
  asid : Nat := 0
  ppn : Nat := 0
  ten : Nat := 0
  busy : Bool := false
  ctxBase : Nat := 0
  sliceLen : Nat := 0
  npLimit : Nat := 50000
  debt : Nat := 0
  npovr : Nat := 0
  swapBase : Nat := 0
  swapN : Nat := 0
  sliceStart : Nat := 0
  grant : Nat := 0
  /-- a reset of its virtual function came while it was LOADING (17 R377): it ends with its restore -/
  endAfterLoad : Bool := false
  sliceOver : Bool := false
  clusters : List Nat := []
  ports : List Nat := []
  swaps : Tab Swapped := []
  saved : Option Saved := none
  gtOff : Nat := 0
  gtSaved : Nat := 0
  gtFrozen : Bool := false
  /-- the ranges that the placement image reserves, as tile, offset and length (02 R47, R49); none before an image -/
  reserved : Option (List (Nat × Nat × Nat)) := none
  /-- the placement image's scratchpad contents, for a repair that cannot read them (16 R353) -/
  image : List Host.Cell := []
  commitPend : Bool := false
  commitFail : Bool := false
  commitSlot : Nat := 0
  /-- RECIPE_COMMIT.REGION (08 R216) -/
  commitRegion : Nat := 0
  commitT : Nat := 0
  hangWindow : Nat := 100000
  hangSince : Option Nat := none
  hangRaised : Bool := false
  seed : Nat := 0
  dbgEn : Bool := false
  dbgAllowed : Bool := false
  /-- HALT holds the landing threads of the region's tiles, but for those that the debugger has resumed since (01 R6, 21 R427) -/
  landHalt : Bool := false
  landFree : List Nat := []
  files : Tab (Nat × Nat) := []
  /-- its part of edge memory that its virtual function's BAR2 shows: ranges that island 0 has chosen (20 R412) -/
  hostWin : List (Nat × Nat) := []
  deriving DecidableEq, Repr

/-- Life cycle of a wafer (21 R424). -/
inductive LifeState where
  | blank | manufacture | secured | debugOpen | returned | retired
  deriving DecidableEq, Repr

structure Wafer where
  life : LifeState := .blank
  booted : Bool := false
  bootStep : Nat := 0
  bootFail : Nat := 0
  bootSafe : Bool := false
  /-- the clocks and time bases of the wafer's tiles are locked (18 R384) -/
  locked : Bool := false
  /-- what the boot found of the clock (18 R382): the port at which an edge bridge brings it to a tile, and the tiles whose repeater failed -/
  clkEntries : Tab Nat := []
  clkBad : List Nat := []
  /-- generation of every coordinate of the wafer that has none of its own -/
  gen : Nat := 1
  /-- the owner's and the vendor's public key, and the digests fused in key slots 0 and 1 (21 R425) -/
  ownerKey : Nat := 0
  vendorKey : Nat := 0
  fused : Tab Nat := []
  tokenCount : Nat := 0
  mrs : Tab Nat := []
  /-- the retirement entries that the islands have loaded into every router of the wafer (07 R167, 18 R389); a router's own writes are in
  its `nameRet` -/
  nameRet : Tab Word64 := []
  /-- an advance of the wafer's generation is scheduled (18 R389) -/
  advanceDue : Bool := false
  quotes : Nat := 0
  lastQuote : List Nat := []
  /-- SYS_WAFERS and SYS_CFG (20 R409), HOSTRST_MODE (17 R378) -/
  wafers : Nat := 1
  sysCfg : Nat := 0
  hostrst : Bool := false
  /-- the host link of a virtual function, and the ranges of edge memory that the host window shows: island 0's choice (20 R412) -/
  vfLink : Tab Nat := []
  hostWin : List (Nat × Nat) := []
  /-- the BAR0 mailboxes: function f, 0 to 3 the links' physical ones and 4 + v a virtual one, byte n at 65536 · f + n (20 R412) -/
  mail : Memory := []
  deriving DecidableEq, Repr

/-- A directed Oxsor path between two wafers (20 R416, R417). -/
structure Oxsor where
  queue : List Msg := []
  /-- the sequence of the next frame, and the last one acknowledged, of 32 bits -/
  seq : Nat := 0
  acked : Nat := 0
  /-- when a frame was last delivered, or the first waiting message entered -/
  since : Nat := 0
  down : Bool := false
  deriving DecidableEq, Repr

/-! The moves of the environment. -/

/-- What happens next: a thread runs, an agent makes one of its steps at a tile and thread, time passes (ns), a tile drops an entry of its
translation cache, as it may at any time (12 R276), a correctable error of a tile or an island is corrected and counted (16 R351, 20 R419), an
island, a host or the management port reads a register, or the host or island 0 acts on a host link (20 R412): opens a range of edge memory
for a wafer or a region, assigns a virtual function to a link, or reads or writes a BAR0 mailbox. -/
inductive Move where
  | run (tile thread : Nat)
  | event (tile thread : Nat) (i : Instr)
  | elapse (ns : Nat)
  | drop (tile n : Nat)
  | corrected (tile : Nat)
  | islandCorrected (island : Nat)
  | read (target : RegTarget)
  | hostRange (wafer : Nat) (region : Option Nat) (ranges : List (Nat × Nat))
  | assignVf (wafer vf link : Nat)
  | mailbox (wafer fn offset len : Nat) (write : Option Nat)
  deriving DecidableEq, Repr

/-- The tile and thread on which the current instruction or step acts, and the word of the current instruction. -/
structure Focus where
  tile : Nat := 0
  thread : Nat := 0
  word : Nat := 0
  deriving DecidableEq, Repr

structure State where
  mem : Memory := []
  tiles : Tab Tile := []
  homes : Tab HomeSt := []
  clusters : Tab Cluster := []
  islands : Tab Island := []
  regions : Tab Region := []
  wafers : Tab Wafer := []
  oxsor : Tab Oxsor := []
  /-- the wafer time base in ns (19 R405), one for all tiles and wafers: the difference that 00 R1 and 18 R384 allow is 0 here (DESIGN CHOICE,
  assumption 103) -/
  now : Nat := 0
  /-- MODEL: what the current step acts on -/
  focus : Focus := {}
  /-- MODEL: the environment's choice of what happens next -/
  agenda : List Move := []
  /-- MODEL: number of the next free value -/
  fresh : Nat := 0
  /-- MODEL: count of performed writes, the order of 13 R283 -/
  perf : Nat := 0
  /-- MODEL: `perf` at the last write of a granule (01 R20) -/
  wrote : Tab Nat := []
  /-- MODEL: earlier contents of granules of edge memory, with `perf` when they were replaced: what an o read may see (13 R289) -/
  olds : Tab (List (Nat × Nat)) := []
  /-- MODEL: what the last read of an island, host or debugger returned -/
  ioRead : Nat := 0
  deriving DecidableEq, Repr

/-- Why a run stops. No trap of the GW-1 stops the model: a trap is a next state. -/
inductive Fault where
  /-- raised by nothing; the type is closed and the GW-1 has no state in which it cannot go on. Safe. -/
  | none
  deriving DecidableEq, Repr

/-- Why an instruction has no meaning here. -/
inductive Refusal where
  /-- raised by an arm of `exec` whose instruction has no meaning yet. Safe. -/
  | notModelled (mnemonic : String)
  deriving DecidableEq, Repr

/-- The machine right after reset (01 R7, R27; INVENTORY.md). -/
def State.reset : State := {}

end Sys2Proof.Machine
end

