-- ==== Sys2Proof/Machine/Access.lean ====
section
/-!
DEFINITION. Reading and updating the state: one accessor pair for each entity, the geometry of the wafer, names, and the
registers of a thread. Everything that reads or writes a register goes through the operations of this file.
-/
namespace Sys2Proof.Machine

/-! Entities -/

def State.tile (s : State) (g : Nat) : Tile := s.tiles.look g {}
def State.modTile (s : State) (g : Nat) (f : Tile → Tile) : State := { s with tiles := s.tiles.put g (f (s.tile g)) }
def Tile.thread (t : Tile) (h : Nat) : Thread := t.thr.look h {}
def Tile.modThread (t : Tile) (h : Nat) (f : Thread → Thread) : Tile := { t with thr := t.thr.put h (f (t.thread h)) }
def State.thread (s : State) (g h : Nat) : Thread := (s.tile g).thread h
def State.modThread (s : State) (g h : Nat) (f : Thread → Thread) : State := s.modTile g (fun t => t.modThread h f)
def State.home (s : State) (h : Nat) : HomeSt := s.homes.look h {}
def State.modHome (s : State) (h : Nat) (f : HomeSt → HomeSt) : State := { s with homes := s.homes.put h (f (s.home h)) }
def State.cluster (s : State) (c : Nat) : Cluster := s.clusters.look c {}
def State.modCluster (s : State) (c : Nat) (f : Cluster → Cluster) : State :=
  { s with clusters := s.clusters.put c (f (s.cluster c)) }
def State.island (s : State) (i : Nat) : Island := s.islands.look i {}
def State.modIsland (s : State) (i : Nat) (f : Island → Island) : State :=
  { s with islands := s.islands.put i (f (s.island i)) }
def State.region (s : State) (r : Nat) : Region := s.regions.look r {}
def State.modRegion (s : State) (r : Nat) (f : Region → Region) : State :=
  { s with regions := s.regions.put r (f (s.region r)) }
def State.wafer (s : State) (w : Nat) : Wafer := s.wafers.look w {}
def State.modWafer (s : State) (w : Nat) (f : Wafer → Wafer) : State := { s with wafers := s.wafers.put w (f (s.wafer w)) }

/-- The thread and tile on which the current step acts. -/
def State.me (s : State) : Thread := s.thread s.focus.tile s.focus.thread
def State.myTile (s : State) : Tile := s.tile s.focus.tile
def State.modMe (s : State) (f : Thread → Thread) : State := s.modThread s.focus.tile s.focus.thread f
def State.modMyTile (s : State) (f : Tile → Tile) : State := s.modTile s.focus.tile f

def Tile.modEng (t : Tile) (f : Engines → Engines) : Tile := { t with e := f t.e }
def Tile.modRegs (t : Tile) (f : TileRegs → TileRegs) : Tile := { t with r := f t.r }
def Tile.modRouter (t : Tile) (f : Router → Router) : Tile := { t with rt := f t.rt }
def Tile.modCtl (t : Tile) (f : TileCtl → TileCtl) : Tile := { t with c := f t.c }
def Thread.modRegs (t : Thread) (f : Regs → Regs) : Thread := { t with r := f t.r }
def Thread.modRun (t : Thread) (f : Run → Run) : Thread := { t with run := f t.run }

/-- A free value below `n` for a number with `n` possible values, and the next counter. -/
def State.free (s : State) : Nat := Config.free s.fresh
def State.used (s : State) : State := { s with fresh := s.fresh + 1 }

/-! Geometry (00 R1, R3; 07 R166; 12 R264) -/

def waferTiles : Nat := 589824
def tileOf (wafer y x : Nat) : Nat := wafer * waferTiles + y * 768 + x
def waferOf (g : Nat) : Nat := g / waferTiles
def yOf (g : Nat) : Nat := g % waferTiles / 768
def xOf (g : Nat) : Nat := g % 768

def clusterAt (wafer y x : Nat) : Nat := wafer * 3072 + y / 12 * 48 + x / 16
def clusterOf (g : Nat) : Nat := clusterAt (waferOf g) (yOf g) (xOf g)
/-- Local index of a tile in its cluster, row · 16 + column (08 R186). -/
def localOf (g : Nat) : Nat := yOf g % 12 * 16 + xOf g % 16
/-- The tile with a local index of a cluster. -/
def tileIn (c l : Nat) : Nat := tileOf (c / 3072) (c % 3072 / 48 * 12 + l / 16) (c % 48 * 16 + l % 16)
def clusterTiles (c : Nat) : List Nat := (List.range 192).map (tileIn c)
/-- The reticle field of a cluster's slot, 4 × 8 slots each, 0 to 95 (00 R1, 18 R380). -/
def fieldOf (c : Nat) : Nat := c % 3072 / 48 / 8 * 12 + c % 48 / 4
/-- Is the cluster slot an island slot (00 R1)? -/
def islandSlot (c : Nat) : Bool := decide (c % 48 % 8 = 3) && decide (c % 3072 / 48 % 8 = 3)
/-- The island of a cluster's block (17 R373). -/
def islandOfCluster (c : Nat) : Nat := c / 3072 * 48 + c % 3072 / 48 / 8 * 6 + c % 48 / 8
def islandOf (g : Nat) : Nat := islandOfCluster (clusterOf g)
/-- The clusters of an island's block. -/
def islandClusters (i : Nat) : List Nat :=
  ((List.range 64).map (fun k => i / 48 * 3072 + (i % 48 / 6 * 8 + k / 8) * 48 + (i % 6 * 8 + k % 8))).filter (fun c => !islandSlot c)
/-- North-west corner coordinate (y, x) of an island's slot (12 R269). -/
def islandCorner (i : Nat) : Nat × Nat := ((i % 48 / 6 * 8 + 3) * 12, (i % 6 * 8 + 3) * 16)

def edgeHome (wafer port : Nat) : Nat := 67108864 + wafer * 128 + port
def islandHome (i : Nat) : Nat := 134217728 + i
def isTileHome (h : Nat) : Bool := decide (h < 67108864)
def isEdgeHome (h : Nat) : Bool := decide (67108864 ≤ h) && decide (h < 134217728)
def homeWafer (h : Nat) : Nat :=
  if isTileHome h then waferOf h else if isEdgeHome h then (h - 67108864) / 128 else (h - 134217728) / 48
/-- Coordinate (y, x) of an edge port's router (20 R414). -/
def edgeCoord (port : Nat) : Nat × Nat :=
  let k := 24 * (port % 32) + 12
  match port / 32 with
  | 0 => (0, k)
  | 1 => (k, 767)
  | 2 => (767, k)
  | _ => (k, 0)
/-- Coordinate (y, x) of a home. -/
def homeCoord (h : Nat) : Nat × Nat :=
  if isTileHome h then (yOf h, xOf h)
  else if isEdgeHome h then edgeCoord ((h - 67108864) % 128)
  else islandCorner (h - 134217728)

/-! Names (01 R13, 07 R156, R166) -/

def mkName (gen y x wafer : Nat) : Nat := gen * 67108864 + y * 65536 + x * 64 + wafer
def nameGen (n : Nat) : Nat := n / 67108864 % 256
def nameY (n : Nat) : Nat := n / 65536 % 1024
def nameX (n : Nat) : Nat := n / 64 % 1024
def nameWafer (n : Nat) : Nat := n % 64
def nameTile (n : Nat) : Nat := tileOf (nameWafer n) (nameY n) (nameX n)

/-- The home a name denotes: an edge port or an island for generation 0 at its coordinate, else the tile (20 R414). -/
def homeOfName (n : Nat) : Nat :=
  if nameGen n ≠ 0 then nameTile n
  else match (List.range 128).find? (fun p => edgeCoord p == (nameY n, nameX n)) with
    | some p => edgeHome (nameWafer n) p
    | none => nameTile n

/-- Current generation of a coordinate. -/
def State.genOf (s : State) (g : Nat) : Nat :=
  match (s.tile g).c.gen with
  | some n => n
  | none => (s.wafer (waferOf g)).gen
def State.nameOf (s : State) (g : Nat) : Nat := mkName (s.genOf g) (yOf g) (xOf g) (waferOf g)
/-- Name of a home: an edge port and an island have generation 0 (12 R270, 20 R414). -/
def State.homeName (s : State) (h : Nat) : Nat :=
  if isTileHome h then s.nameOf h else mkName 0 (homeCoord h).1 (homeCoord h).2 (homeWafer h)
/-- Is wafer `w` part of the system, by SYS_WAFERS of wafer `v` (20 R409)? -/
def State.inSystem (s : State) (v w : Nat) : Bool := (s.wafer v).wafers / 2 ^ w % 2 == 1

/-- Is the coordinate a place where no tile answers: an island slot, a hole, or beyond the grid (07 R166)? -/
def State.noTile (s : State) (wafer y x : Nat) : Bool :=
  decide (767 < x) || decide (767 < y) || islandSlot (clusterAt wafer y x) || (s.tile (tileOf wafer y x)).c.hole

/-- Beyond the grid, in an island slot, or on no wafer of the system as wafer `v` knows it: what the first router refuses without its table (07
R166, 18 R389). -/
def State.offGrid (s : State) (v n : Nat) : Bool :=
  decide (767 < nameX n) || decide (767 < nameY n) || islandSlot (clusterAt (nameWafer n) (nameY n) (nameX n)) || !s.inSystem v (nameWafer n)

/-- 07 R166 with the generation test left to the caller. -/
def State.stalePlace (s : State) (v n : Nat) : Bool :=
  s.noTile (nameWafer n) (nameY n) (nameX n) || !s.inSystem v (nameWafer n)

/-- 07 R166 against the current generation, as wafer `v` finds it. -/
def State.staleName (s : State) (v n : Nat) : Bool := s.stalePlace v n || nameGen n != s.genOf (nameTile n)

/-! Registers of a thread (01 R7) -/

/-- x0 reads 0. -/
def Regs.getX (r : Regs) (n : Nat) : Word64 := if n = 0 then 0 else r.x.look n 0
/-- x0 ignores writes. -/
def Regs.setX (r : Regs) (n : Nat) (v : Word64) : Regs := if n = 0 then r else { r with x := r.x.put n v }
def Regs.getF (r : Regs) (n : Nat) : Word32 := r.f.look n 0
def Regs.setF (r : Regs) (n : Nat) (v : Word32) : Regs := { r with f := r.f.put n v }
def TileRegs.getV (r : TileRegs) (n : Nat) : VWord := r.v.look n 0
def TileRegs.setV (r : TileRegs) (n : Nat) (v : VWord) : TileRegs := { r with v := r.v.put n v }
/-- p0 is all ones after reset (01 R7). -/
def TileRegs.getP (r : TileRegs) (n : Nat) : Word64 := r.p.look n (if n = 0 then BitVec.allOnes 64 else 0)
def TileRegs.setP (r : TileRegs) (n : Nat) (v : Word64) : TileRegs := { r with p := r.p.put n v }
def TileRegs.getAcc (r : TileRegs) (a i j : Nat) : Word32 × Word32 := r.acc.look (256 * a + 16 * i + j) (0, 0)
def TileRegs.setAcc (r : TileRegs) (a i j : Nat) (v : Word32 × Word32) : TileRegs :=
  { r with acc := r.acc.put (256 * a + 16 * i + j) v }

/-- Are words of the stream still to be consumed for the write? -/
def Pend.wantsWords (p : Pend) : Bool := match p.need with | .words _ => true | _ => false

/-- A discarded write is gone, but a `qpopv` still consumes its words (01 R25). -/
def Pend.over (p : Pend) : Bool := p.dropped && !p.wantsWords

/-- A later write discards the pending long-latency write of the same register (01 R25). -/
def Run.dropPend (r : Run) (toV : Bool) (n : Nat) : Run :=
  { r with pend := (r.pend.map (fun p => if p.toV == toV ∧ p.reg = n then { p with dropped := true } else p)).filter (fun p => !p.over) }

/-- The writes that are pending: the entries that no later write has discarded (01 R25). -/
def Run.livePend (r : Run) : List Pend := r.pend.filter (fun p => !p.dropped)

/-- A write of an x register by an instruction. -/
def Thread.putX (t : Thread) (n : Nat) (v : Word64) : Thread := { r := t.r.setX n v, run := t.run.dropPend false n }
def Thread.putF (t : Thread) (n : Nat) (v : Word32) : Thread := { t with r := t.r.setF n v }
/-- A write of a v register of the tile by t0. -/
def Tile.putV (t : Tile) (n : Nat) (v : VWord) : Tile :=
  (t.modRegs (·.setV n v)).modThread 0 (fun th => th.modRun (·.dropPend true n))

def State.getX (s : State) (n : Nat) : Word64 := s.me.r.getX n
def State.getXn (s : State) (n : Nat) : Nat := (s.getX n).toNat
def State.putX (s : State) (n : Nat) (v : Word64) : State := s.modMe (·.putX n v)
def State.putXn (s : State) (n v : Nat) : State := s.putX n (BitVec.ofNat 64 v)
def State.getV (s : State) (n : Nat) : VWord := s.myTile.r.getV n
def State.putV (s : State) (n : Nat) (v : VWord) : State := s.modMyTile (·.putV n v)

/-- Scratchpad offset of a pc (01 R18). -/
def pcOff (pc : Word64) : Nat := pc.toNat % 1048576
/-- A thread's pc prefix: path 0x01, the tile's current name, window 0 (01 R18). -/
def State.prefixOf (s : State) (g : Nat) : Nat := 288230376151711744 + s.nameOf g * 16777216
def State.pcAt (s : State) (g off : Nat) : Word64 := BitVec.ofNat 64 (s.prefixOf g + off)

/-! Time (04 R93, 19 R405) -/

/-- The region a tile serves: the region id of its cluster (17 R356). -/
def State.regionIdOf (s : State) (g : Nat) : Nat := (s.cluster (clusterOf g)).region
/-- Region number of a tile's region. -/
def State.regionOf (s : State) (g : Nat) : Nat := waferOf g * 256 + s.regionIdOf g
/-- Guest time of a region: the time base plus its offset, frozen while its context is not RUNNING (17 R358). -/
def State.guestTime (s : State) (r : Nat) : Nat :=
  let q := s.region r
  if q.gtFrozen then q.gtSaved else (s.now + q.gtOff) % 18446744073709551616
/-- What a tile's clock has lost to stretched cycles, in 1/2000 of a cycle: a stretched cycle lasts twice the period of EFF (19 R401). -/
def TileCtl.stretched (c : TileCtl) (now eff : Nat) : Nat := min ((now - c.droopFrom) * eff) c.droopLeft
def TileCtl.lost (c : TileCtl) (now eff : Nat) : Nat := c.lostU + c.stretched now eff
/-- Core cycles of a tile's clock (01 R11, 19 R399). The count goes on over a tile reset, at which `instret` starts again from 0 (DESIGN CHOICE,
assumption 104). -/
def State.cyclesOf (s : State) (g : Nat) : Nat :=
  let c := s.cluster (clusterOf g)
  (c.cycAnchor + 2 * c.eff * (s.now - c.timeAnchor) - (s.tile g).c.lost s.now c.eff) / 2000

/-- The island that polices a region (17 R373): that of the block with most of its clusters, the lowest on a tie; for a region of
no clusters, the given one. -/
def State.policing (s : State) (r dflt : Nat) : Nat :=
  let cs := (s.region r).clusters
  let count (i : Nat) : Nat := (cs.filter (fun c => islandOfCluster c == i)).length
  match cs.map islandOfCluster with
  | [] => dflt
  | i :: is => is.foldl (fun b j => if count b < count j ∨ (count b = count j ∧ j < b) then j else b) i

/-- The listed tiles of a region: every tile that is not listed is at reset, with nothing to stop, save or wipe. -/
def State.regionTiles (s : State) (r : Nat) : List Nat := (s.tiles.map (·.1)).filter (fun g => s.regionOf g == r)

/-- The region a virtual function is bound to (17 R376). -/
def boundRegion (s : State) (w vf : Nat) : Option Nat :=
  match (s.island (w * 48)).vfBind.find vf with
  | some v => if v / 9223372036854775808 = 1 then some (w * 256 + v % 256) else none
  | none => none

/-- A region that no virtual function is bound to is self-hosted (17 R376, 19 R406). -/
def State.selfHosted (s : State) (r : Nat) : Bool :=
  !((s.island (r / 256 * 48)).vfBind.any (fun p => decide (p.2 = 9223372036854775808 + r % 256)))

end Sys2Proof.Machine
end

