-- ==== Sys2Proof/Machine/Messages.lean ====
section
/-!
DEFINITION. Messages and homes: names, rights, routes, injection, refusal, delivery (07 R154 to R170), writes at a home with what they wake
(04 R78, 14 R303), and the events of the policy engine (08 R200).
-/
namespace Sys2Proof.Machine

/-! Messages (07) -/

/-- The header flit of a message (07 R156). -/
def Msg.header (m : Msg) : Header :=
  { dst := m.dst, src := m.src, vc := m.vc, kind := m.kind, lv := m.lv, lexp := m.lexp, len := m.len, region := m.region,
    handler := m.handler, seq := m.seq, sthr := m.sthr, aux := m.aux }

/-- Flits of a list of messages, each with its header. -/
def flits (l : List Msg) : Nat := (l.map (fun m => m.len + 1)).foldl (· + ·) 0

/-- Key of an input buffer of a router: input port (4 local), VC, main or escape. -/
def bufKey (port vc : Nat) (esc : Bool) : Nat := port * 32 + vc * 2 + (if esc then 1 else 0)

/-- Does a buffer of a number of flits take a message (07 R154)? One longer than the buffer takes the whole of it. Assumption 86. -/
def fitsBuf (cap : Nat) (held : List Msg) (len : Nat) : Bool := held.isEmpty || decide (flits held + len + 1 ≤ cap)

/-- Does the router of tile `g` accept the injection of a message of a length on a VC? -/
def State.canInject (s : State) (g vc len : Nat) : Bool := fitsBuf 8 ((s.tile g).rt.bufs.look (bufKey 4 vc false) []) len

/-- NAME_RETn of a router: its own write, or what the islands have loaded into every router of its wafer (07 R167). -/
def State.nameRetOf (s : State) (g n : Nat) : Nat :=
  match (s.tile g).rt.nameRet.find n with
  | some v => v.toNat
  | none => ((s.wafer (waferOf g)).nameRet.look n 0).toNat

/-- The retirement entry of a router for a coordinate (07 R167): dead, and its current generation. -/
def State.retired (s : State) (g name : Nat) : Option (Bool × Nat) :=
  match ((List.range 64).map (s.nameRetOf g)).find? (fun v => decide (v / 9223372036854775808 % 2 = 1 ∧ v % 67108864 = name % 67108864)) with
  | some v => some (v / 4611686018427387904 % 2 == 1, v / 67108864 % 256)
  | none => none

/-- The first router's name check (07 R168): R166, with the retirement table for the generation and for the holes: a hole whose entry is left
out is found further on (18 R389). -/
def State.firstCheck (s : State) (router : Nat) (m : Msg) : Bool :=
  if isTileHome m.dstHome then
    if s.offGrid (waferOf router) m.dst then false
    else match s.retired router m.dst with
      | some (dead, gen) => !dead && gen == nameGen m.dst
      | none => true
  else s.inSystem (waferOf router) (homeWafer m.dstHome)

/-- Are messages of the region `r` granted the right `bit` by an access table (17 R372)? -/
def grants (table : Tab Nat) (r mask : Nat) : Bool := table.look r 0 % 16 &&& mask == mask

/-- The rights a message needs of a target: R 1, W 2, L 4, C 8 (07 R157, 17 R372). -/
def rightsOf (m : Msg) : Nat :=
  match m.body with
  | .portWord _ _ => 2
  | .stream _ => 2
  | .task _ _ _ _ => 4
  | .mem q => match q.op with
    | .load _ | .watch _ | .fetch => 1
    | .store => 2
    | .claim => 10
    | _ => 3
  | .copyLine _ _ _ _ => 10
  | .packet _ _ _ _ _ => 10
  | _ => 0

/-- A thread in `wfi` wakes at a message (04 R76); its `wfi` then completes. -/
def Thread.wfiWake (t : Thread) : Thread :=
  match t.run.ts, t.run.wait with
  | .sleeping, some w => if w.kind = 5 then t.modRun (fun r => { r with ts := .running, wait := none, answer := some 0 }) else t
  | _, _ => t

/-- Does the message wake `wfi`: every one but a leaven return and a borrow grant (04 R76)? -/
def Msg.wakesWfi (m : Msg) : Bool :=
  match m.body with
  | .leavenReturn _ _ => false
  | .borrow op _ _ => op != 1
  | _ => true

/-- Where a message is taken in: its destination home; a system call that reaches another island than the one that polices the region, at that
one, over the service network (17 R373). -/
def State.forwarded (s : State) (m : Msg) : Msg :=
  match m.body with
  | .syscall _ _ =>
    if isTileHome m.dstHome || isEdgeHome m.dstHome then m
    else { m with dstHome := islandHome (s.policing (homeWafer m.srcHome * 256 + m.region) (m.dstHome - 134217728)) }
  | _ => m

/-- Delivery at a home: the message joins the home's inbox. -/
def State.deliver (s : State) (m : Msg) : State :=
  let m := s.forwarded m
  let m := if isTileHome m.dstHome then { m with seen := (s.tile m.dstHome).e.mqSerial } else m
  let s := s.modHome m.dstHome (fun h => { h with inbox := h.inbox ++ [m] })
  if isTileHome m.dstHome && m.wakesWfi then (s.modThread m.dstHome 0 Thread.wfiWake).modThread m.dstHome 1 Thread.wfiWake else s

/-- The override registers of the router at a coordinate: a tile's own, or the island's at a pass-through router (07 R160). -/
def State.ovrOf (s : State) (g : Nat) : Tab Word64 := if islandSlot (clusterOf g) then (s.island (islandOf g)).ovr else (s.tile g).rt.ovr

/-- Does an override register match a destination (07 R160)? -/
def ovrMatches (v : Word64) (wafer y x : Nat) : Bool :=
  let n := v.toNat
  n / 9223372036854775808 % 2 == 1 && n / 16384 % 64 == wafer && decide (n / 1099511627776 % 1024 ≤ x) &&
  decide (x ≤ n / 1125899906842624 % 1024) && decide (n / 1048576 % 1024 ≤ y) && decide (y ≤ n / 1073741824 % 1024)

/-- The output of a router for a destination home (07 R158). A message for another wafer with no entry for it is discarded. -/
def State.routeOf (s : State) (g : Nat) (esc : Bool) (h : Nat) : Nat × Bool × Bool :=
  let w := homeWafer h
  let (y, x) := homeCoord h
  if w = waferOf g ∧ y = yOf g ∧ x = xOf g then (4, esc, false)
  else
    let ov := s.ovrOf g
    match (List.range 16).find? (fun n => ovrMatches (ov.look n 0) w y x) with
    | some n => let v := (ov.look n 0).toNat; (v / 1152921504606846976 % 4, esc || v / 4611686018427387904 % 2 == 1, true)
    | none =>
      if w ≠ waferOf g then (5, esc, false)
      else if xOf g < x then (1, esc, false) else if x < xOf g then (3, esc, false)
      else if yOf g < y then (2, esc, false) else (0, esc, false)

/-- A message's header arrives at a router's input buffer, where its output is chosen. -/
def State.arrive (s : State) (g port : Nat) (esc : Bool) (m : Msg) : State :=
  let inside := s.regionOf g == homeWafer m.srcHome * 256 + m.region && !islandSlot (clusterOf g)
  let m := { m with route := some (s.routeOf g esc m.dstHome), left := if inside then none else some (m.left.getD s.now) }
  -- the flits of the side's link have passed their check (07 R164)
  s.modTile g (fun t => t.modRouter (fun r => { r with replays := r.replays.del port, bufs := r.bufs.modify (bufKey port m.vc esc) [] (fun l => l ++ [m]) }))

/-- The module byte or offset a message addresses at an edge port lies beyond the module (20 R415). -/
def beyondModule (m : Msg) : Bool :=
  match m.body with
  | .mem q => decide (64000000000 ≤ q.addr)
  | .copyLine a _ _ _ => decide (64000000000 ≤ a)
  | .packet _ _ _ _ _ => true
  | _ => false

/-- A message named with generation 0 and the coordinate of an edge port is the bridge's and not the tile's (20 R414). A window and an offset
name no byte of a module, so the bridge refuses such a request as one beyond it (DESIGN CHOICE, assumption 113). -/
def Msg.toBridge (m : Msg) : Msg :=
  if isTileHome m.dstHome && nameGen m.dst == 0 && isEdgeHome (homeOfName m.dst) then
    { m with dstHome := homeOfName m.dst,
             body := match m.body with
               | .mem q => .mem { q with addr := 64000000000 + q.addr }
               | .copyLine a k d u => .copyLine (64000000000 + a) k d u
               | b => b }
  else m

/-- Does the home refuse an ejected message: its name, or its own access table (07 R168, 17 R372)? -/
def State.ejectRefusal (s : State) (m : Msg) : Option Nat :=
  let h := m.dstHome
  if isTileHome h then
    if s.staleName (waferOf h) m.dst || (s.tile h).rt.closed then some 1 else none
  else if !grants (s.home h).access m.region (rightsOf m) then some 5
  else if isEdgeHome h && (beyondModule m || m.kind ≤ 2) then some 5
  else none

/-- The router of a home. -/
def homeRouter (h : Nat) : Nat := tileOf (homeWafer h) (homeCoord h).1 (homeCoord h).2

/-- Why the first router, or the home's own for a message to itself, refuses a message at its injection (07 R168). A request, response or
control message to the sender itself is ejected at once (07 R152). -/
def State.refusalAtSource (s : State) (h : Nat) (m : Msg) : Option Nat :=
  if !s.firstCheck (homeRouter h) m then some 1
  else if m.dstHome = h ∧ 13 ≤ m.vc then s.ejectRefusal m
  else none

/-- The side of an edge home's router at which its port attaches; a tile or an island has none. -/
def sideOf (h : Nat) : Option Nat := if isEdgeHome h then some ((h - 67108864) % 128 / 32) else none

/-- The input port of its router through which a home injects: the local one, or an edge port's side (07 R150, 18 R381). -/
def inPort (h : Nat) : Nat := match sideOf h with | some p => p | none => 4

/-- Has the input buffer of a home's router room for a message of its hardware, with none of the VC waiting before it? -/
def State.homeRoom (s : State) (h vc len : Nat) : Bool :=
  fitsBuf 8 ((s.tile (homeRouter h)).rt.bufs.look (bufKey (inPort h) vc false) []) len && !(s.home h).outbox.any (fun m => m.vc == vc)

/-- A message that its first router has passed: ejected at once, or in the input buffer until it can move. Answers and control messages wait for
room; a sender on another VC has seen to it before. -/
def State.enqueue (s : State) (h : Nat) (m : Msg) : State :=
  let m := { m with sent := s.perf }
  if m.dstHome = h ∧ 13 ≤ m.vc then s.deliver m
  else if m.vc ≤ 13 ∨ s.homeRoom h m.vc m.len then s.arrive (homeRouter h) (inPort h) false m
  else s.modHome h (fun q => { q with outbox := q.outbox ++ [m] })

/-- The messages of a home's hardware that wait enter its router as far as there is room, in order on each VC. -/
def State.flushOut (s : State) (h : Nat) : State :=
  if (s.home h).outbox.isEmpty then s
  else (s.home h).outbox.foldl (fun s m => s.enqueue h m) (s.modHome h (fun q => { q with outbox := [] }))

/-- Which request of its source a message belongs to: the access or unit, the lane of an element, whether a value is awaited, and the outcome
of a refusal (07 R169): 0 an access without a result or another message, 1 a join, 2 a unit of a copy, 3 an increment, 4 a borrow, 5 a
window store. -/
def refusedInfo (m : Msg) : Nat × Nat × Bool × Nat :=
  match m.body with
  | .mem q => (q.id, q.lane, q.awaited, if m.kind = 1 then 5 else match q.op with | .fetch => 2 | .claim => 2 | .increment => 3 | .jdec => 1 | _ => 0)
  | .copyLine _ _ _ u => (u, 0, false, 2)
  | .packet _ _ _ _ u => (u, 0, false, 2)
  | .borrow _ d t => (t, d, false, 4)
  | .task _ _ _ u => if u = 0 then (0, 0, false, 0) else (u - 1, 0, false, 2)
  | _ => (0, 0, false, 0)

/-- A notice to an island, without a report's layout: code and name (07 R169, 08 R194, 10 R238). -/
def State.notice (s : State) (i code name : Nat) : State :=
  s.modIsland i (fun d => { d with notices := d.notices ++ [(code, name)] })

/-- The island that is told of what happens at a home. -/
def islandAt (h : Nat) : Nat :=
  if isTileHome h then islandOf h else if isEdgeHome h then islandOf (homeRouter h) else h - 134217728

/-- What an ejected message does: a control message of a reserved OP, 5 to 15, is discarded, and the island told (20 R410). -/
def State.accept (s : State) (m : Msg) : State :=
  if m.kind = 9 ∧ 5 ≤ m.aux / 4096 then s.notice (islandAt m.dstHome) 0x46 m.src else s.deliver m

/-- Injection of a message whose refusal reaches nobody but the island: an error. -/
def State.injectOr (s : State) (h : Nat) (m : Msg) : State :=
  match s.refusalAtSource h m with
  | none => s.enqueue h m
  | some r => s.notice (islandAt h) r m.dst

/-- A refusal of a message without weight at the router or home `h` (07 R169): an error message to the source with the refused header, unless
the source's own name is stale. The island of the place is informed. -/
def State.refuseBare (s : State) (h : Nat) (m : Msg) (reason : Nat) : State :=
  let s := s.notice (islandAt h) reason m.dst
  if m.kind = 8 then s
  else if isTileHome m.srcHome && s.staleName (homeWafer h) m.src then s
  else
    let (id, lane, awaited, cls) := refusedInfo m
    s.injectOr h { m with dst := m.src, dstHome := m.srcHome, src := s.homeName h, srcHome := h, vc := 15, kind := 8,
                          lv := false, lexp := 0, len := 1, aux := reason * 256, handler := 0,
                          body := .error reason m.header id lane awaited cls }

/-- Injection of a message without weight, with the checks of the first router (07 R168). -/
def State.injectBare (s : State) (h : Nat) (m : Msg) : State :=
  match s.refusalAtSource h m with
  | none => s.enqueue h m
  | some r => s.refuseBare h m r

/-! Domains that lose weight (10 R238, R253) -/

/-- Directory entry of a domain in a cluster (10 R237). -/
def State.domain (s : State) (c d : Nat) : DomEntry := (s.cluster c).domains.look d {}
def State.modDomain (s : State) (c d : Nat) (f : DomEntry → DomEntry) : State :=
  s.modCluster c (fun q => { q with domains := q.domains.modify d {} f })

/-- The clusters whose tables hold a region's domains: those of the region, and the given one. -/
def State.regClusters (s : State) (r : Nat) : List Nat :=
  (s.clusters.filter (fun p => p.1 / 3072 == r / 256 && p.2.region == r % 256)).map (·.1)
def State.domClusters (s : State) (r c : Nat) : List Nat :=
  let cs := s.regClusters r
  if cs.contains c then cs else cs ++ [c]

/-- Watch key of a `qwdone`; a `qwait` has the plain domain number. -/
def doneKey (d : Nat) : Nat := 64 + d

/-- The directory entry of a domain as an island knows it: from any cluster of the region. -/
def State.anyDomain (s : State) (r d : Nat) : DomEntry :=
  match (s.regClusters r).find? (fun c => (s.domain c d).state != 0) with
  | some c => s.domain c d
  | none => {}

/-- A control message of the root cluster to a waiting thread (R247): status 0 QUIET, 1 LOST and hung, 3 LOST for a `qwdone`. -/
def State.wakeQuiet (s : State) (rt : Nat) (w : Nat × Nat × Nat) (status : Nat) : State :=
  s.injectBare rt { dst := s.nameOf w.2.1, src := s.homeName rt, dstHome := w.2.1, srcHome := rt, vc := 15, kind := 9, lv := false,
                    lexp := 0, len := 1, region := s.regionIdOf rt, handler := 0, seq := 0, sthr := w.2.2, aux := 12288,
                    body := .quiet (w.1 % 64) status }

/-- Wakes the watchers of a domain that `p` picks. -/
def State.wakeWatchers (s : State) (rt d status : Nat) (p : Nat → Bool) : State :=
  let c := clusterOf rt
  let hit (w : Nat × Nat × Nat) : Bool := w.1 % 64 == d && p w.1
  let ws := (s.cluster c).quietWatch.filter hit
  let s := s.modCluster c (fun k => { k with quietWatch := k.quietWatch.filter (fun w => !hit w) })
  ws.foldl (fun s w => s.wakeQuiet rt w status) s

/-- A root's domain becomes LOST with a report; the `qwdone` that wait for it go on. -/
def State.domLost (s : State) (rt d : Nat) : State :=
  let s := s.modDomain (clusterOf rt) d (fun e => { e with state := 3 })
  (s.wakeWatchers rt d 3 (fun k => decide (64 ≤ k))).notice (islandOf rt) 0x42 (s.nameOf rt)

/-- A domain that loses weight is LOST (10 R238, R249): the `qwdone` that wait for it go on. -/
def State.loseDomain (s : State) (rt d : Nat) : State :=
  let e := s.domain (clusterOf rt) d
  if e.here ∧ e.state = 1 then s.domLost rt d else s

/-- Weight of a domain of region `r` that can reach neither its source nor its root: the domain is LOST (10 R239, R253). -/
def State.loseWeight (s : State) (r d : Nat) : State :=
  let e := s.anyDomain r d
  if e.state = 0 then s else s.loseDomain (nameTile e.root) d

/-! Refusals -/

/-- The domain whose share a message carries (10 R241). -/
def Msg.domain (m : Msg) : Nat := match m.body with | .task _ _ dw2 _ => dw2 / 2199023255552 % 64 | _ => m.aux % 64

/-- The weight a refused message carries returns to its sender with OP 1 (10 R252). Where the sender's name is stale, or the message is such a
return itself, nobody is left to forward it. -/
def State.returnWeight (s : State) (h : Nat) (m : Msg) : State :=
  if m.lv then
    let r : Msg := { m with dst := m.src, dstHome := m.srcHome, src := s.homeName h, srcHome := h, vc := 15, kind := 6,
                            len := 0, aux := 16384 + m.domain, handler := 0, seq := 0, sthr := 3, body := .leavenReturn 1 m.domain }
    match m.body with
    | .leavenReturn 1 d => s.loseWeight (homeWafer m.dstHome * 256 + m.region) d
    | _ => match s.refusalAtSource h r with
      | none => s.enqueue h r
      | some c => (s.loseWeight (homeWafer m.srcHome * 256 + m.region) m.domain).notice (islandAt h) c m.src
  else s

/-- A refusal at the router or home `h`: that of the message, and the return of its weight. -/
def State.refuse (s : State) (h : Nat) (m : Msg) (reason : Nat) : State := (s.returnWeight h m).refuseBare h m reason

/-- Injection with the checks of the first router (07 R168). -/
def State.inject (s : State) (h : Nat) (m : Msg) : State :=
  let m := m.toBridge
  match s.refusalAtSource h m with
  | none => s.enqueue h m
  | some r => s.refuse h m r

/-- A message of a thread, with its header (07 R156). -/
def State.msgFrom (s : State) (g h dst dstHome vc kind len : Nat) (lv : Bool) (lexp aux handler : Nat) (body : Payload) : Msg :=
  { dst := dst, src := s.nameOf g, dstHome := dstHome, srcHome := g, vc := vc, kind := kind, lv := lv,
    lexp := lexp, len := len, region := s.regionIdOf g, handler := handler, seq := (s.thread g h).run.seq, sthr := h, aux := aux, body := body }

/-- The thread's SEQ advances with each message (07 R156). -/
def State.nextSeq (s : State) (g h : Nat) : State := s.modThread g h (fun t => t.modRun (fun r => { r with seq := (r.seq + 1) % 256 }))

/-- A message from a thread. -/
def State.sendFrom (s : State) (g h dst dstHome vc kind len : Nat) (lv : Bool) (lexp aux handler : Nat) (body : Payload) : State :=
  (s.nextSeq g h).inject g (s.msgFrom g h dst dstHome vc kind len lv lexp aux handler body)

/-- A message from a tile's hardware, a home, an edge port or an island. STHR is 3, and SEQ, which only threads count, is 0 (07 R156; Assumption
87). -/
def State.sendHw (s : State) (h dst dstHome vc kind len : Nat) (lv : Bool) (lexp region aux handler : Nat) (body : Payload) : State :=
  s.inject h { dst := dst, src := s.homeName h, dstHome := dstHome, srcHome := h, vc := vc, kind := kind, lv := lv, lexp := lexp,
               len := len, region := region, handler := handler, seq := 0, sthr := 3, aux := aux, body := body }

/-- The region id in the messages of a home: a tile's own; edge ports and islands belong to none. -/
def State.homeRegion (s : State) (h : Nat) : Nat := if isTileHome h then s.regionIdOf h else 0

/-- A response to a message with the given source, SEQ and STHR, which it copies (07 R156). -/
def State.answer (s : State) (h dst dstHome seq sthr len : Nat) (body : Payload) : State :=
  s.inject h { dst := dst, src := s.homeName h, dstHome := dstHome, srcHome := h, vc := 14, kind := 4, lv := false, lexp := 0,
               len := len, region := s.homeRegion h, handler := 0, seq := seq, sthr := sthr, aux := 0, body := body }

/-- Every message under way: in a router, between wafers, or waiting at a home. -/
def State.flying (s : State) : List Msg :=
  (s.tiles.map (fun (p : Nat × Tile) => (p.2.rt.bufs.map (fun b => b.2)).flatten)).flatten ++
  (s.oxsor.map (fun p => p.2.queue)).flatten ++ (s.homes.map (fun p => p.2.inbox ++ p.2.outbox)).flatten

/-! Stores at a home -/

/-- Memory key of a home-local address: window 0 of a tile, or a module byte of an edge port (12 R264, R270). -/
def homeKey (h addr : Nat) : Nat :=
  if isTileHome h then padKey h addr else edgeKey (homeWafer h) ((h - 67108864) % 128 * 68719476736 + addr)

/-- Is a word of the scratchpad one that the fetch unit of a thread can hold: at the pc, or at most 8 words ahead (01 R20)? -/
def heldAhead (pc : Word64) (word : Nat) : Bool := decide (pcOff pc / 4 ≤ word) && decide (word ≤ pcOff pc / 4 + 8)

/-- A scratchpad word is about to change: its old content stays visible to the tile's fetches until `fence.i` (01 R20). -/
def Run.markStale (r : Run) (word old perf : Nat) (own : Bool) : Run :=
  let l := (r.stale.look word []).filter (fun x => !(x.old == old && x.own == own))
  { r with stale := r.stale.put word (l ++ [⟨old, perf, own⟩]) }

/-- Marks the words of scratchpad bytes [addr, addr + n) of tile g as modified by thread `h` of tile `wg`, for the threads whose fetch unit may
hold them. -/
def State.markStale (s : State) (g addr n wg wh : Nat) : State :=
  (List.range ((addr + n + 3) / 4 - addr / 4)).foldl (fun s k =>
    let w := addr / 4 + k
    let old := s.mem.readNat (padKey g (4 * w)) 4
    let one (h : Nat) (t : Tile) : Tile := t.modThread h (fun th =>
      if heldAhead th.r.pc w then th.modRun (·.markStale w old s.perf (wg == g && wh == h)) else th)
    s.modTile g (fun t => one 0 (one 1 (one 2 t)))) s

/-- Wake of one watch: a control message with the granule's new value (14 R303), of OP 2; its STHR names the thread (20 R410). -/
def State.wakeWatch (s : State) (h : Nat) (w : Watch) : State :=
  let v := s.mem.readNat (homeKey h (8 * w.granule)) 8
  s.inject h { dst := w.src, src := s.homeName h, dstHome := w.srcHome, srcHome := h, vc := 15, kind := 9, lv := false, lexp := 0,
               len := 1, region := s.homeRegion h, handler := 0, seq := 0, sthr := w.thread, aux := 8192, body := .wake w.id v }

/-- What a performed write does at its home besides the bytes: reservations of the granules fall, watches wake (04 R78, 14 R303). -/
def State.touched (s : State) (h addr n : Nat) : State :=
  let hit (gr : Nat) : Bool := decide (addr / 8 ≤ gr) && decide (gr < (addr + n + 7) / 8)
  let ws := (s.home h).watches.filter (fun w => hit w.granule)
  let s := s.modHome h (fun q => { q with resv := q.resv.filter (fun r => !hit r.granule),
                                          watches := q.watches.filter (fun w => !hit w.granule) })
  ws.foldl (fun s w => s.wakeWatch h w) s

/-- Keeps the contents of the edge-memory granules that a write is about to change (13 R289). -/
def State.keepOld (s : State) (h addr n : Nat) : State :=
  (List.range ((addr + n + 7) / 8 - addr / 8)).foldl (fun s k =>
    let key := homeKey h (8 * (addr / 8 + k))
    { s with olds := s.olds.put key (s.olds.look key [] ++ [(s.mem.readNat key 8, s.perf)]) }) s

/-- Notes when the granules of a write were last written (01 R20). -/
def State.noteWrite (s : State) (h addr n : Nat) : State :=
  (List.range ((addr + n + 7) / 8 - addr / 8)).foldl (fun s k => { s with wrote := s.wrote.put (homeKey h (8 * (addr / 8 + k))) s.perf }) s

/-- `perf` at the last write of a byte of [addr, addr + n) of a home. -/
def State.lastWrite (s : State) (h addr n : Nat) : Nat :=
  (List.range ((addr + n + 7) / 8 - addr / 8)).foldl (fun m k => max m (s.wrote.look (homeKey h (8 * (addr / 8 + k))) 0)) 0

/-- A write of bytes at a home by thread `wh` of tile `wg` (3 for an engine, an island or another agent). -/
def State.storeAt (s : State) (h addr : Nat) (bs : List Byte) (wg wh : Nat) : State :=
  if bs.isEmpty then s
  else
    let s := if isTileHome h then s.markStale h addr bs.length wg wh else s.keepOld h addr bs.length
    let s := { s with mem := s.mem.writeBytes (homeKey h addr) bs, perf := s.perf + 1 }
    (s.noteWrite h addr bs.length).touched h addr bs.length

def State.loadAt (s : State) (h addr n : Nat) : Nat := s.mem.readNat (homeKey h addr) n

/-- Is a byte of [addr, addr + n) of a home under a claim (13 R291)? -/
def State.claimed (s : State) (h addr n : Nat) : Bool :=
  (s.home h).claims.any (fun c => decide (c.line < (addr + n + 63) / 64) && decide (addr / 64 ≤ c.line))

/-- Thread index in its cluster (08 R195). -/
def threadIndex (g h : Nat) : Nat := localOf g * 2 + h

/-! Coherent accesses of islands, hosts and walks to edge memory -/

/-- A range of `n` bytes cut at multiples of `unit`: start and length of each piece. -/
def pieces (unit a n : Nat) : List (Nat × Nat) :=
  (List.range ((a + n + unit - 1) / unit - a / unit)).map (fun k =>
    let lo := max a (unit * (a / unit + k))
    (lo, min (a + n) (unit * (a / unit + k) + unit) - lo))

/-- The forwarding entry that covers a module byte whose line has moved (17 R374). -/
def forwardOf (s : State) (h a : Nat) : Option Forward :=
  if isEdgeHome h then
    ((s.home h).forwards.find? (fun p => p.2.v && p.2.chunk == a / 2097152 && (p.2.fwd || decide (a % 2097152 / 64 < p.2.moved)))).map (·.2)
  else none

/-- The home of a byte of edge memory, past the forwarding of a moved line. -/
def edgeSpot (s : State) (w pa : Nat) : Nat × Nat :=
  let h := edgeHome w (pa / 68719476736 % 128)
  let a := pa % 68719476736
  match forwardOf s h a with
  | some f => let q := f.target + a % 2097152; (edgeHome w (q / 68719476736 % 128), q % 68719476736)
  | none => (h, a)

/-- Does every byte of the range exist? -/
def edgeExists (pa n : Nat) : Bool :=
  decide (pa + n ≤ 8796093022208) && (pieces 68719476736 pa n).all (fun p => decide (p.1 % 68719476736 + p.2 ≤ 64000000000))

/-- The physical addresses that may name a byte of an edge home: its own, and those of the slices that move or have moved onto it. -/
def edgeNames (s : State) (h a : Nat) : List Nat :=
  let base (h : Nat) : Nat := (h - 67108864) % 128 * 68719476736
  let pa := base h + a
  let via (p : Nat × HomeSt) : List Nat := p.2.forwards.filterMap (fun f =>
    if isEdgeHome p.1 ∧ f.2.target ≤ pa ∧ pa < f.2.target + 2097152 then some (base p.1 + f.2.chunk * 2097152 + (pa - f.2.target)) else none)
  pa :: (s.homes.map via).flatten

/-- Is a byte of [pa, pa + n) of edge memory under a claim (13 R291)? -/
def edgeClaimed (s : State) (w pa n : Nat) : Bool :=
  s.homes.any (fun p => isEdgeHome p.1 && homeWafer p.1 == w && p.2.claims.any (fun c =>
    (edgeNames s p.1 (64 * c.line)).any (fun x => decide (x < pa + n) && decide (pa < x + 64) && edgeSpot s w x == (p.1, 64 * c.line))))

def edgeRead (s : State) (w pa n : Nat) : List Byte :=
  ((pieces 64 pa n).map (fun p => let x := edgeSpot s w p.1; s.mem.readBytes (homeKey x.1 x.2) p.2)).flatten

/-- A write at the coherent side of the ports, line by line: watches wake and reservations fall as for any write. -/
def edgeWrite (s : State) (w pa : Nat) (bs : List Byte) : State :=
  (pieces 64 pa bs.length).foldl (fun s p =>
    let x := edgeSpot s w p.1
    s.storeAt x.1 x.2 ((bs.drop (p.1 - pa)).take p.2) (tileOf w 0 0) 3) s

/-! Events of the policy engine (08 R200) -/

/-- Raises an event, coalesced as R200 gives. -/
def State.raise (s : State) (c : Nat) (e : PEvent) : State :=
  s.modCluster c (fun q =>
    let same (x : PEvent) : Bool :=
      if e.kind ≤ 2 then decide (x.kind ≤ 2)
      else if e.kind = 6 then x.kind == 6
      else if e.kind = 4 then x.kind == 4 && x.queue == e.queue
      else x.kind == e.kind && x.thread == e.thread
    -- the one pending fault of a thread keeps the class that decides most (16 R347)
    let join (x : PEvent) : PEvent := if e.kind = 5 ∧ same x ∧ x.cls < e.cls then { x with cause := e.cause, cls := e.cls } else x
    if q.events.any same then { q with events := q.events.map join } else { q with events := q.events ++ [e] })

def State.signalIdle (s : State) (g h : Nat) : State :=
  let c := clusterOf g
  if (s.cluster c).queues.any (fun p => !p.2.isEmpty) then s.raise c ⟨1, threadIndex g h, 0, 0, 0⟩ else s

end Sys2Proof.Machine
end

