-- ==== Sys2Proof/Machine/Ops.lean ====
section
/-!
DEFINITION. The named operations every meaning is built from: finishing an instruction, switch points, the orders of fences, stops, waiting,
taking a trap and returning from one.
-/
namespace Sys2Proof.Machine

/-! Finishing an instruction -/

/-- A pc with another offset. -/
def pcWith (pc : Word64) (off : Nat) : Word64 := BitVec.ofNat 64 (pc.toNat / 1048576 * 1048576 + off % 1048576)

/-- The pc and loop CSRs after the instruction at offset `off` completes without a transfer (04 R82). -/
def Thread.passEdge (t : Thread) (off : Nat) : Thread :=
  let l := t.r.loop
  let go (n : Nat) (l : Loop) : Thread := { t with r := { t.r with pc := pcWith t.r.pc n, loop := l } }
  if l.lpa ∧ off = l.last then
    if l.count.toNat ≤ 1 then go (off + 4) { l with count := 0, lpa := false }
    else go l.start { l with count := l.count - 1 }
  else go (off + 4) l

/-- The repeat that follows: the next stepped word (04 R86), which neither `rep` nor its word is fetched for again. -/
def RepRun.next (r : RepRun) : RepRun := { r with word := r.word + r.delta }

/-- REPDONE of the repeat that executes, plus 1; 0 outside a repeat (16 R341). -/
def Thread.repMark (t : Thread) : Nat := if t.run.rep.isSome then t.r.loop.repdone + 1 else 0

/-- The thread after one more instruction has completed in sequence: a repeat (04 R86) or an ordinary instruction. -/
def Thread.seqNext (t : Thread) : Thread :=
  match t.run.rep with
  | some r =>
    let d := t.r.loop.repdone + 1
    if d < r.count then { t with r := { t.r with loop := { t.r.loop with repdone := d } } }
    else
      let t := { t with r := { t.r with loop := { t.r.loop with repa := false, repdone := 0 } } }
      t.passEdge (pcOff t.r.pc + 4)
  | none => t.passEdge (pcOff t.r.pc)

/-- The pc of the instruction that executes: a repeat executes as the instruction at pc + 4 (04 R86). -/
def Thread.instrPc (t : Thread) : Word64 := if t.run.rep.isSome then t.r.pc + 4 else t.r.pc

/-- A fresh start for the next instruction: the waits of the last one are over. -/
def Run.clearWaits (r : Run) : Run :=
  { r with xl := [], give := .none, phase := 0, phaseVal := 0, fwdDone := false, answer := none, rep := none,
           wait := none }

/-- A breakpoint passed is armed again (21 R428), and the fetch unit holds nothing behind the pc or beyond its reach (01 R20). -/
def Thread.retired (t : Thread) : Thread :=
  { r := { t.r with instret := (t.r.instret + 1) % 18446744073709551616 },
    run := { t.run.clearWaits with dbg := { t.run.dbg with atBrk := false },
                                   stale := t.run.stale.filter (fun p => heldAhead t.r.pc p.1) } }

/-! Long-latency writes (01 R24, R25) -/

def Pend.isDone (p : Pend) : Bool := p.need == .done
/-- Every pending write has been performed; an entry whose write was discarded is no pending write. -/
def Thread.pendDone (t : Thread) : Bool := t.run.livePend.all Pend.isDone

/-- All pending writes of the thread become visible together, in program order. -/
def Tile.commitPend (t : Tile) (h : Nat) : Tile :=
  let th := t.thread h
  let t := th.run.livePend.foldl (fun t p =>
    if p.toV then t.modRegs (·.setV p.reg (BitVec.ofNat 512 p.value))
    else t.modThread h (fun th => { th with r := th.r.setX p.reg (BitVec.ofNat 64 p.value) })) t
  t.modThread h (fun th => th.modRun (fun r => { r with pend := r.pend.filter (·.dropped) }))

/-- The wait entry of a park on a `qpopv` whose words have not all arrived (01 R6, 10 R255). -/
def Thread.parkEntry (t : Thread) (now : Nat) : Option WaitEntry :=
  match t.run.livePend.find? Pend.wantsWords with
  | some p => match p.need with
    | .words b => some ⟨0, 0, (if b.v then 9223372036854775808 else 0) + b.vc * 17179869184 + b.src, now⟩
    | _ => none
  | none => none

/-- A switch point of a thread: commit, or park until every pending write has been performed (01 R24). -/
def State.switchPoint (s : State) (g h : Nat) : State :=
  let th := s.thread g h
  if th.run.livePend.isEmpty then s
  else if th.pendDone then s.modTile g (·.commitPend h)
  else s.modThread g h (fun t => t.modRun (fun r => { r with ts := .parked, wait := t.parkEntry s.now }))

/-- Does the thread hold no pending write, so that an instruction that acts as a switch point first may go on? -/
def State.switched (s : State) : Bool := s.me.run.livePend.isEmpty

/-- An instruction that first acts as a switch point and finds pending writes: it commits them or parks, and executes again. -/
def State.switchFirst (s : State) : State := s.switchPoint s.focus.tile s.focus.thread

/-- A long-latency write joins the thread's pending ones (01 R25). -/
def State.addPend (s : State) (p : Pend) : State := s.modMe (fun t => t.modRun (fun r => { r with pend := r.pend ++ [p] }))

/-- The ninth pending long-latency write first acts as a switch point (01 R25). -/
def State.longLatency (s : State) (go : State → State) : State := if 8 ≤ s.me.run.livePend.length then s.switchFirst else go s

/-! Reservations and watches of a thread that stops (04 R78, 14 R304) -/

def State.dropThreadAt (s : State) (g h : Nat) : State :=
  { s with homes := s.homes.map (fun p => (p.1,
      { p.2 with resv := p.2.resv.filter (fun r => !(r.srcHome == g && r.thread == h)),
                 watches := p.2.watches.filter (fun w => !(w.srcHome == g && w.thread == h)),
                 lost := p.2.lost.filter (fun w => !(w.srcHome == g && w.thread == h)) })) }

/-- The walks that a thread's instruction waited for are of no more use: the instruction translates anew. -/
def State.dropWalks (s : State) (g h : Nat) : State :=
  s.modTile g (fun t => t.modEng (fun e => { e with walks := e.walks.filter (fun w => w.thread != h) }))

/-- The reads of a wait that have not been injected are of no more use: the wait begins again. -/
def State.dropWatchReads (s : State) (g h : Nat) : State :=
  let watch (u : Unsent) : Bool := u.msg.sthr == h && (match u.msg.body with | .mem q => (match q.op with | .watch _ => true | _ => false) | _ => false)
  if (s.tile g).e.unsent.any watch then s.modTile g (fun t => t.modEng (fun e => { e with unsent := e.unsent.filter (fun u => !watch u) })) else s

/-! Fences that a thread has passed (13 R287, R288) -/

/-- Does a home lie in HOMES(s) of a tile (13 R288)? -/
def inScope (s : State) (g sc h : Nat) : Bool :=
  let r := s.regionOf g
  match sc with
  | 0 => false
  | 1 => h == g
  | 2 => isTileHome h && clusterOf h == clusterOf g
  | 3 => (isTileHome h && s.regionOf h == r && homeWafer h == waferOf g)
         || (isEdgeHome h && homeWafer h == waferOf g && (s.region r).ports.contains ((h - 67108864) % 128))
  | 4 => homeWafer h == waferOf g
  | _ => true

/-- SEQ of the thread's port words, sends and records in the scope that are under way: one is complete once it has been ejected and taken in,
a refused record when its refusal has arrived (13 R281). -/
def State.sendsOpen (s : State) (g h sc : Nat) : List Nat :=
  s.flying.filterMap (fun m =>
    if m.kind ≤ 2 ∧ m.srcHome = g ∧ m.sthr = h ∧ inScope s g sc m.dstHome then some m.seq
    else match m.body with
      | .error _ q _ _ _ _ => if q.kind = 2 ∧ m.dstHome = g ∧ m.sthr = h ∧ inScope s g sc (nameTile q.dst) then some m.seq else none
      | _ => none)

/-- What a fence with predecessor set `p` and a scope waits for: accesses by id and home, messages by SEQ, and the last matrix entry. Queued
matrix entries of t0 are reads of class r and `macc` writes of class w (06 R138). -/
def State.fenceOrder (s : State) (g h p q sc : Nat) : FenceOrder :=
  { ids := ((s.thread g h).run.outs.map (fun o =>
      (o.parts.filter (fun x => (x.cls &&& p) != 0 && inScope s g sc x.home)).map (fun x => (o.id, x.home)))).flatten,
    seqs := if p % 2 = 1 then s.sendsOpen g h sc else [],
    serial := if h = 0 ∧ inScope s g sc g then
        ((s.tile g).e.mq.filter (fun e => (p / 2 % 2 == 1 && !e.reads.isEmpty) || (p % 2 == 1 && !e.writes.isEmpty))).foldl
          (fun n e => max n (e.serial + 1)) 0
      else 0,
    pred := p, succ := q, scope := sc }

/-- Is something that the fence waits for not complete? -/
def State.unmet (s : State) (g h : Nat) (f : FenceOrder) : Bool :=
  (s.thread g h).run.outs.any (fun o => o.parts.any (fun x => (x.cls &&& f.pred) != 0 && f.ids.contains (o.id, x.home))) ||
  (!f.seqs.isEmpty && (s.sendsOpen g h f.scope).any (fun n => f.seqs.contains n)) ||
  (decide (0 < f.serial) && (s.tile g).e.mq.any (fun e => decide (e.serial < f.serial)))

/-- The orders of a thread's fences that are not fulfilled. -/
def State.openFences (s : State) (g h : Nat) : List FenceOrder := (s.thread g h).run.fences.filter (s.unmet g h)

/-- Does a fence that the thread has passed hold back an access of a class to a home? -/
def State.fenceHeld (s : State) (g h cls home : Nat) : Bool :=
  (s.openFences g h).any (fun f => (f.succ &&& cls) != 0 && inScope s g f.scope home)

/-- Is an access of a class to a home held back: by an earlier acquire (13 R285), or by a fence that the thread has passed? -/
def State.heldOrder (s : State) (g h cls home : Nat) : Bool :=
  (s.thread g h).run.outs.any (·.aq) || s.fenceHeld g h cls home

/-- An o refresh point of a thread (13 R289). -/
def Thread.refreshO (t : Thread) (perf : Nat) : Thread := t.modRun (fun r => { r with oacq := perf, oports := [], oseen := [] })

/-- The edge ports in the scope of a fence of tile `g` (13 R288); the system scope holds every port. -/
def State.portsIn (s : State) (g sc : Nat) : List Nat :=
  if sc = 3 then (s.region (s.regionOf g)).ports.map (edgeHome (waferOf g)) else (List.range 128).map (edgeHome (waferOf g))

/-- The completion of a fence with o in its successor set is an o refresh point for the edge ports in its scope (13 R289). -/
def State.fenceRefresh (s : State) (g h q sc : Nat) : State :=
  if q / 4 % 2 = 0 ∨ sc < 3 then s
  else if sc = 5 then s.modThread g h (·.refreshO s.perf)
  else s.modThread g h (fun t => t.modRun (fun r => { r with oports := (s.portsIn g sc).foldl (fun m h => m.put h s.perf) r.oports }))

/-! What a thread's reads make known to its fetches (01 R20; assumption 88) -/

/-- A read of a home of a class has returned a value that was written at `n`, into a register or to a wait. It counts once an instruction
depends on it, waited for it, or follows a fence that orders it. -/
def Run.noteRead (r : Run) (home cls : Nat) (d : OutDst) (n : Nat) : Run :=
  let r := { r with readAt := r.readAt.modify (home * 16 + cls) 0 (max n) }
  match d with
  | .x rd _ _ | .test rd _ => if rd = 0 then r else { r with seen := r.seen.put rd n }
  | .f rd => { r with seen := r.seen.put (32 + rd) n }
  | .v vd _ => { r with seen := r.seen.modify (64 + vd) 0 (max n) }
  | .watch => { r with acq := max r.acq n }
  | _ => r

/-- A fence with predecessor set `p` has completed: the reads that it orders are known. -/
def State.fenceReads (s : State) (g h p sc : Nat) : State :=
  let n := ((s.thread g h).run.readAt.filter (fun (x : Nat × Nat) => (x.1 % 16 &&& p) != 0 && inScope s g sc (x.1 / 16))).foldl (fun m x => max m x.2) 0
  if n ≤ (s.thread g h).run.acq then s else s.modThread g h (fun t => t.modRun (fun r => { r with acq := n }))

/-- The completion of a fence of a thread. -/
def State.fenceDone (s : State) (g h p q sc : Nat) : State := (s.fenceReads g h p sc).fenceRefresh g h q sc

/-! Reports (16 R341, R342) -/

/-- The wait-table entry in its four doublewords (10 R254). -/
def waitWords (g h : Nat) (w : Option WaitEntry) : List Nat :=
  match w with
  | none => [0, 0, 0, 0]
  | some e => [9223372036854775808 + e.kind * 1152921504606846976 + threadIndex g h, e.addr, e.value, e.posted]

/-- The leader's tile of a tile's gathering; a gathering that has dissolved has none. -/
def State.leaderOf (s : State) (g : Nat) : Nat :=
  let ga := (s.thread g 0).run.gather
  if ga.dissolved then g
  else match ga.role with
    | .attached | .detached | .left => ga.leader
    | _ => g

/-- The task that a thread works for: its own, or its gathering's leader's. -/
def State.taskAt (s : State) (g h : Nat) : Option TaskInfo :=
  (s.thread (if h = 0 then s.leaderOf g else g) h).run.task

/-- Region id of the task of a thread, or of its tile when none runs (16 R341). -/
def State.taskRegionId (s : State) (g h : Nat) : Nat :=
  match if h < 2 then s.taskAt g h else none with
  | some ti => ti.tr.dw2 / 67108864 % 256
  | none => s.regionIdOf g

/-- A precise report (16 R341). `rep` is REPDONE of the trapping word's repeat plus 1, 0 for a word that no `rep` repeats. -/
def State.reportOf (s : State) (g h cause sub addr : Nat) (pc : Word64) (insn : Nat) (eng : Bool) (rep : Nat) : FaultRep :=
  let t := s.thread g h
  let ga := t.run.gather
  { v := true, eng := eng, gang := ga.role != .solo, det := ga.role == .detached, index := ga.index,
    np := decide (0 < t.run.npd), rep := rep != 0, repdone := rep - 1,
    cause := cause, sub := sub,
    region := s.taskRegionId g h, thread := h, seq := (s.tile g).c.repSeq, name := s.nameOf g, pc := pc.toNat, insn := insn, addr := addr,
    time := s.now, held := t.r.weight, stoppc := t.r.pc.toNat,
    wait := if eng then [0, 0, 0, 0] else waitWords g h t.run.wait }

/-- A report goes to the ring of the island that polices its region (17 R373), and to the thread's latch when that is free (16 R342). -/
def State.postReport (s : State) (g : Nat) (r : FaultRep) : State :=
  let s := s.modTile g (fun t => t.modCtl (fun c =>
    { c with repSeq := (c.repSeq + 1) % 65536,
             reps := if r.thread < 3 ∧ (c.reps.look r.thread {}).v = false then c.reps.put r.thread r else c.reps }))
  s.modIsland (s.policing (waferOf g * 256 + r.region) (islandOf g)) (fun i => { i with ring := i.ring ++ [r] })

/-- A report without a thread (16 R351). -/
def State.reportTile (s : State) (g cause sub addr : Nat) : State :=
  s.postReport g { v := true, cause := cause, sub := sub, region := s.regionIdOf g, thread := 3, seq := (s.tile g).c.repSeq,
                   name := s.nameOf g, addr := addr, time := s.now, wait := [0, 0, 0, 0] }

/-! Stops (01 R6, 09 R233, 17 R359) -/

/-- A thread stops: it holds its state, its reservation and watches fall, and a wait begins again at resumption. -/
def State.stopOne (s : State) (g h : Nat) : State :=
  let t := s.thread g h
  match t.run.ts with
  | .idle => s
  | .stopped => s
  | ts =>
    let s := (((s.dropThreadAt g h).dropWalks g h).dropWatchReads g h).modThread g h (fun t => t.modRun (fun r =>
      { r with ts := .stopped, heldTs := ts, lrAddr := none, rep := none, xl := [],
               -- what the read of a wait has found is of no more use
               answer := if r.phase = 5 ∨ r.phase = 7 then none else r.answer,
               outs := r.outs.filter (fun o => o.dst != .watch) }))
    match t.run.stop.report with
    | none => s
    | some (c, sub, a) =>
      (s.postReport g (s.reportOf g h c sub a t.r.pc 0 false 0)).modThread g h (fun t => t.modRun (fun r =>
        { r with stop := { r.stop with report := none } }))

/-- The tiles of the attached members of the gathering led by tile `g`. -/
def State.attachedOf (s : State) (g : Nat) : List Nat :=
  let n := (s.thread g 0).run.gather.size
  ((List.range n).map (fun k => g + k)).filter (fun m =>
    m != g && (s.thread m 0).run.gather.role == .attached && (s.thread m 0).run.gather.leader == g)

def TState.atRest (t : TState) : Bool := t == .idle || t == .stopped

/-- Words that a leader has forwarded for an instruction of its own that is not complete: the pair of a `rep` is two. -/
def Thread.wordsAhead (t : Thread) : Nat :=
  if !t.run.fwdDone then 0 else if t.run.rep.isSome || t.r.loop.repa then 2 else 1

/-- Must an attached member execute words that its leader has forwarded before the boundary where it stops (09 R233)? -/
def State.owesWords (s : State) (m : Nat) : Bool :=
  let t := s.thread m 0
  !t.run.ts.atRest && t.run.gather.role == .attached && decide ((s.thread t.run.gather.leader 0).wordsAhead < t.run.gather.buf.length)

/-- Does nothing await the access's value: it has none, or its task has ended? -/
def OutDst.silent (d : OutDst) : Bool := d == .nowhere || d == .gone

/-- A vector load that has sent requests writes its destination before a stop takes effect (05 R106). -/
def Thread.vecBusy (t : Thread) : Bool := t.run.outs.any (fun o => match o.dst with | .v _ _ => true | _ => false)

/-- The elements of access `id` of a thread that have not been injected. -/
def State.unsentOf (s : State) (g h id : Nat) : List Unsent :=
  (s.tile g).e.unsent.filter (fun u => u.msg.sthr == h && (match u.msg.body with | .mem q => q.id == id | _ => false))

/-- Does the thread stand within an instruction where no stop takes effect: a vector load, a vector store that has begun injecting (05 R106),
or a fence that still imposes an order? -/
def State.midway (s : State) (g h : Nat) : Bool :=
  (s.thread g h).vecBusy || !(s.openFences g h).isEmpty ||
  (s.thread g h).run.outs.any (fun o => decide (1 < o.flats.length) && decide (0 < (s.unsentOf g h o.id).length) &&
    decide ((s.unsentOf g h o.id).length < o.flats.length))

/-- A thread stops; the attached members of a leader stop with it, each after the words forwarded to it. `rep`, of a leader that has trapped:
what their own reports hold. -/
def State.stopWith (s : State) (g h : Nat) (rep : Option (Nat × Nat × Nat)) : State :=
  let lead := h == 0 && (s.thread g h).run.gather.role == .leader
  let s := s.stopOne g h
  if lead then (s.attachedOf g).foldl (fun s m =>
    let s := s.modThread m 0 (fun t => t.modRun (fun r => { r with stop := { r.stop with leader := true, report := rep } }))
    if s.owesWords m || s.midway m 0 then s else s.stopOne m 0) s
  else s

def State.stopThread (s : State) (g h : Nat) : State := s.stopWith g h none

/-- Has every thread of the region stopped? -/
def State.allStopped (s : State) (r : Nat) : Bool :=
  (s.regionTiles r).all (fun g => (s.thread g 0).run.ts.atRest && (s.thread g 1).run.ts.atRest)

/-- The debt of a slice whose end a section deferred: known when the last thread of the region stops, whatever stops it (17 R369). -/
def State.noteDebt (s : State) (r : Nat) : State :=
  let q := s.region r
  if q.sliceOver && s.allStopped r then
    s.modRegion r (fun q => { q with debt := if q.sliceLen = 0 then q.debt else s.now - (q.sliceStart + q.grant), sliceOver := false })
  else s

/-- The debugger's halt of t0 or t1, at a boundary, in a section or not (21 R427, R428). t2 never stops inside a handler (01 R6). -/
def State.debugHalt (s : State) (g h : Nat) : State :=
  if 1 < h || (s.thread g h).run.ts == .idle || (s.thread g h).run.dbg.halted then s
  else if s.midway g h then s.modThread g h (fun t => t.modRun (fun r => { r with stop := { r.stop with debug := true } }))
  else ((s.stopThread g h).modThread g h (fun t => t.modRun (fun r =>
    { r with stop := { r.stop with debug := false }, dbg := { r.dbg with halted := true, stepping := false, pcWritten := false } }))).noteDebt
      (s.regionOf g)

/-! Taking a trap (16 R338 to R343) -/

/-- What a cause leads to (16 R339). -/
inductive CauseClass where
  | tile | context | task | noThread
  deriving DecidableEq, Repr

def causeClass (cause : Nat) : CauseClass :=
  if cause = 0x18 then .context else if cause = 0x28 then .task else if 0x22 ≤ cause ∧ cause ≤ 0x25 then .noThread else .tile

/-- Ends a packet without a commit: its claims fall, and it counts towards its request (15 R332, R334, R336). -/
def State.dropPacket (s : State) (g code : Nat) : State :=
  match (s.tile g).e.landNow with
  | none => s
  | some p =>
    let s := s.modTile g (fun t => t.modEng (fun e =>
      { e with landNow := none, landErr := true, landCode := code, landHid := p.hid, landSrc := p.src,
               landDrops := min (e.landDrops + 1) 4294967295 }))
    let s := s.modHome g (fun q => { q with claims := q.claims.filter (fun c => !(c.srcHome == p.srcHome && c.unit == p.unit)) })
    s.answer g p.src p.srcHome p.seq p.sthr 0 (.resp p.unit 0 0 false 0)

/-- t2 ends its handler; its registers keep their values until the next one starts (15 R324). -/
def State.idleT2 (s : State) (g : Nat) : State :=
  s.modThread g 2 (fun t => { t with run := {} })

/-- The tile's other thread stops at its next boundary for a fault (16 R343). -/
def State.stopOther (s : State) (g h : Nat) : State :=
  if (s.thread g h).run.ts == .idle then s
  else
    let s := s.modThread g h (fun t => t.modRun (fun r => { r with stop := { r.stop with fault := true } }))
    if s.midway g h then s else s.stopThread g h

/-- The trap of one thread of a tile, with its report (16 R338, R343). The other threads of the tile stop, the matrix unit halts, the
cluster gets a FAULT event; a trap of t2 aborts its packet instead (15 R325). -/
def State.trapAt (s : State) (g h cause sub addr : Nat) (pc : Word64) (insn : Nat) (eng : Bool) (rep : Nat) : State :=
  let s := s.postReport g (s.reportOf g h cause sub addr pc insn eng rep)
  if h = 2 then (s.dropPacket g 0x81).idleT2 g
  else
    let s := s.stopWith g h (some (cause, sub, addr))
    let s := s.modThread g h (fun t => t.modRun (fun r => { r with failed := true, due := [] }))
    let s := (s.stopOther g (1 - h)).noteDebt (s.regionOf g)
    let s := s.modTile g (fun t => t.modCtl (fun c => { c with stopped := true }))
    let cl := match causeClass cause with | .context => 2 | .task => 1 | _ => 0
    s.raise (clusterOf g) ⟨5, threadIndex g h, 0, cause, cl⟩

def State.trapDue (s : State) (g h : Nat) (d : DueTrap) : State := s.trapAt g h d.cause d.sub d.addr d.pc d.insn d.eng d.rep

/-- A trap that is due at the thread's boundary, taken once the thread can stop there (05 R106); each has its report and its event. -/
def State.trapSoon (s : State) (g h : Nat) (d : DueTrap) : State :=
  if s.midway g h then s.modThread g h (fun t => t.modRun (fun r => { r with due := r.due ++ [d] }))
  else s.trapDue g h d

/-- Taking a trap at the current instruction: nothing of the instruction takes effect (16 R338). A vector load under way completes first
(05 R106): the instruction is looked at again until then. -/
def State.takeTrap (s : State) (cause sub addr : Nat) : State :=
  if s.midway s.focus.tile s.focus.thread then s
  else s.trapAt s.focus.tile s.focus.thread cause sub addr s.me.r.pc s.focus.word false s.me.repMark

def causeIllegal : Nat := 0x02
def State.illegal (s : State) : State := s.takeTrap causeIllegal 0 0

/-- The orders of fences that are fulfilled are at an end: the fences complete. -/
def State.dropFences (s : State) (g h : Nat) : State :=
  if (s.thread g h).run.fences.isEmpty then s
  else
    let ended := (s.thread g h).run.fences.filter (fun f => !s.unmet g h f)
    ended.foldl (fun s f => s.fenceDone g h f.pred f.succ f.scope)
      (s.modThread g h (fun t => t.modRun (fun r => { r with fences := s.openFences g h })))

/-- The stops that a thread takes by itself: an attached member stops for a pre-emption or an eviction with its leader, at the boundary of the
stream where that stops (09 R233). -/
def Run.ownStop (r : Run) : StopReq :=
  if r.gather.role == .attached then { r.stop with slice := false, evict := false } else r.stop

/-- A stop or a trap that has been asked for is taken at the boundary where the thread stands, outside a section (17 R359, R368). -/
def State.stopDue (s : State) (g h : Nat) : State :=
  let s := s.dropFences g h
  let t := s.thread g h
  if s.midway g h || t.run.ts.atRest then s
  else match t.run.due with
    | d :: ds => ds.foldl (fun s d => s.trapDue g h d) (s.trapDue g h d)
    | [] =>
      if t.run.stop.debug then s.debugHalt g h
      else if t.run.stop.fault then s.stopThread g h
      else if t.run.ownStop = {} ∨ 0 < t.run.npd ∨ (h = 0 ∧ s.owesWords g ∧ t.run.stop.leader = true) then s
      else (s.stopThread g h).noteDebt (s.regionOf g)

/-- Is a stop or a trap of the thread due that waits only until the thread can stop (05 R106)? Its next instruction is held. -/
def State.heldForStop (s : State) (g h : Nat) : Bool :=
  let r := (s.thread g h).run
  !r.due.isEmpty || r.stop.debug || r.stop.fault ||
  (r.ownStop != {} && r.npd == 0 && !(decide (h = 0) && s.owesWords g && r.stop.leader))

/-- A stop that a section may defer (17 R359, R368). A thread that a proofing pass, a repair or a debugger has stopped keeps the request
for its end. -/
def State.askStop (s : State) (g h : Nat) (f : StopReq → StopReq) : State :=
  (s.modThread g h (fun t =>
    if t.run.ts == .idle || (t.run.ts == .stopped && !t.run.stop.tileStop && !t.run.dbg.halted) then t
    else t.modRun (fun r => { r with stop := f r.stop }))).stopDue g h

/-! The forwarded stream of a gathering (09 R224 to R226) -/

/-- The leader passes on a word with the offset of its next pc. -/
def State.forward (s : State) (g : Nat) (w : FwdWord) : State :=
  if (s.thread g 0).run.gather.role == .leader then
    (s.attachedOf g).foldl (fun s m => s.modThread m 0 (fun t => t.modRun (fun r =>
      { r with gather := { r.gather with buf := r.gather.buf ++ [w] } }))) s
  else s

/-- An attached follower takes its words out of the buffer: one for an ordinary instruction, none between the repeats of a `rep`,
and both of the pair after the last repeat. It detaches when its own next offset differs (09 R226). -/
def Thread.followed (t : Thread) (n : Nat) : Thread :=
  match t.run.gather.role, n with
  | .attached, n + 1 =>
    let g := t.run.gather
    match g.buf.drop n with
    | w :: rest =>
      if pcOff t.r.pc = w.next then t.modRun (fun r => { r with gather := { g with buf := rest } })
      else t.modRun (fun r => { r with gather := { g with role := .detached, buf := [] } })
    | [] => t
  | _, _ => t

/-- A single-stepped thread halts after its instruction (21 R428). -/
def State.stepDone (s : State) (g h : Nat) : State :=
  if (s.thread g h).run.dbg.stepping then s.debugHalt g h else s

/-- The end of an instruction: the thread as it stands after it, forwarding, following, and the switch marker. -/
def State.finish (s : State) (after : Thread) (sbit : Bool) : State :=
  let g := s.focus.tile
  let h := s.focus.thread
  let before := s.thread g h
  let mid := before.run.rep.isSome && after.r.loop.repa
  let sp := match before.run.rep with
    | some r => r.sW && !mid
    | none => sbit
  let used := if before.run.rep.isSome then (if mid then 0 else 2) else 1
  let s := s.modThread g h (fun _ => (after.retired.modRun (fun r =>
    { r with fwdDone := mid && before.run.fwdDone, rep := if mid then before.run.rep.map RepRun.next else none })).followed used)
  let s := if h = 0 ∧ before.run.fwdDone = false ∧ before.run.rep = none
    then s.forward g ⟨s.focus.word, pcOff before.r.pc, pcOff after.r.pc⟩ else s
  ((if sp then s.switchPoint g h else s).stopDue g h).stepDone g h

/-- The instruction is complete and the next in sequence follows. -/
def State.retire (s : State) (sbit : Bool) : State := s.finish s.me.seqNext sbit

/-- The instruction is complete and transfers control to an offset of the same scratchpad. -/
def State.retireTo (s : State) (off : Nat) : State :=
  let t := s.me
  -- the trace ring of taken transfers (21 R428)
  s.finish { r := { t.r with pc := pcWith t.r.pc off },
             run := { t.run with dbg := { t.run.dbg with trace := (t.run.dbg.trace ++ [t.r.pc.toNat]).drop (t.run.dbg.trace.length - 63) } } } false

/-! Waiting -/

/-- Forwarding of an instruction that waits, at its issue (09 R224): its followers run it while the leader waits. -/
def State.forwardAtIssue (s : State) : State :=
  let th := s.me
  if s.focus.thread = 0 ∧ th.run.fwdDone = false ∧ th.run.gather.role == .leader ∧ th.run.rep = none then
    (s.forward s.focus.tile ⟨s.focus.word, pcOff th.r.pc, pcOff th.seqNext.r.pc⟩).modMe
      (fun t => t.modRun (fun r => { r with fwdDone := true }))
  else s

/-- The thread waits at its instruction, RUNNING with no entry posted, and executes it again later. -/
def State.waitHere (s : State) : State :=
  (s.forwardAtIssue.modMe (fun t => t.modRun (fun r => { r with wait := none }))).stopDue s.focus.tile s.focus.thread

/-- The thread enters SLEEPING with a wait-table entry (10 R254); a wait that goes on keeps its entry. -/
def State.sleep (s : State) (kind addr value : Nat) : State :=
  let s := s.forwardAtIssue
  (s.modMe (fun t => t.modRun (fun r =>
    { r with ts := .sleeping, wait := (match r.wait with | some w => some w | none => some ⟨kind, addr, value, s.now⟩) }))).stopDue
    s.focus.tile s.focus.thread

/-- A sleeping thread runs again. -/
def Thread.wake (t : Thread) : Thread :=
  t.modRun (fun r => match r.ts with
    | .sleeping => { r with ts := .running, wait := none }
    | .stopped => { r with heldTs := (if r.heldTs == .sleeping then .running else r.heldTs), wait := none }
    | _ => r)

/-! The return from a stop (16 R350) -/

/-- No thread of the tile is STOPPED any more: the tile is no longer withheld (16 R343). -/
def State.unstopTile (s : State) (g : Nat) : State :=
  if (s.thread g 0).run.ts == .stopped || (s.thread g 1).run.ts == .stopped then s
  else s.modTile g (fun t => t.modCtl (fun c => { c with stopped := false }))

/-- The return from a stop (16 R350): the thread goes back to the state it held; a wait other than a system call or a park runs its
instruction again. -/
def Thread.resumed (t : Thread) : Thread :=
  t.modRun (fun r =>
    if r.ts == .stopped then
      let back : TState :=
        if r.heldTs == .sleeping then
          (match r.wait with | some w => if w.kind = 6 then .sleeping else .running | none => .running)
        else if r.heldTs == .idle then .idle else r.heldTs
      { r with ts := back, wait := if back == .running then none else r.wait,
               phase := if back == .running then 0 else r.phase, stop := {}, failed := false, accFailed := false, due := [] }
    else r)

/-- Reasons to hold a thread end; it runs on when none is left, but on a dead tile, which runs nothing (17 R371). -/
def State.releaseOne (s : State) (g h : Nat) (f : StopReq → StopReq) : State :=
  let s := s.modThread g h (fun t => t.modRun (fun r => { r with stop := f r.stop }))
  let r := (s.thread g h).run
  if r.stop = {} ∧ r.failed = false ∧ r.dbg.halted = false ∧ !(s.tile g).c.dead ∧ !(s.tile g).c.hole then s.modThread g h Thread.resumed else s

/-- As `releaseOne`; a leader's stopped attached members resume together with it (16 R349). -/
def State.release (s : State) (g h : Nat) (f : StopReq → StopReq) : State :=
  let s := s.releaseOne g h f
  if h = 0 ∧ (s.thread g 0).run.gather.role = .leader ∧ (s.thread g 0).run.ts ≠ .stopped
  then (s.attachedOf g).foldl (fun s m => s.releaseOne m 0 (fun q => { q with leader := false })) s else s

/-- The island's resume ends the stops by a fault and by the island. While the latch holds a report, or the debugger has the thread halted,
it is ignored. -/
def State.resumeThread (s : State) (g h : Nat) : State :=
  if ((s.tile g).c.reps.look h {}).v || (s.thread g h).run.dbg.halted then s
  else (s.modThread g h (fun t => t.modRun (fun r => { r with failed := false }))).release g h (fun q =>
    { q with island := false, fault := false, leader := false })

/-- The end of a stop by a proofing pass or a repair: the thread runs on unless something else asked it to stop meanwhile. -/
def State.endTileStop (s : State) (g h : Nat) : State :=
  if !(s.thread g h).run.stop.tileStop then s else s.release g h (fun q => { q with tileStop := false })

/-- The end of a debug halt (04 R75, 21 R428): a thread that halted at its own `ebreak` passes it unless the debugger wrote its pc; it runs
on unless a fault or another stop holds it. -/
def Thread.undebug (t : Thread) : Thread :=
  let d := t.run.dbg
  let t := if d.halted ∧ d.atEbreak ∧ d.pcWritten = false then { t with r := { t.r with pc := pcWith t.r.pc (pcOff t.r.pc + 4) } } else t
  t.modRun (fun r => { r with dbg := { d with halted := false, atEbreak := false, stepping := false, pcWritten := false } })

def State.debugResume (s : State) (g h : Nat) : State :=
  if !(s.thread g h).run.dbg.halted then s
  else
    let s := (s.modThread g h Thread.undebug).release g h (fun q => { q with debug := false })
    s.unstopTile g

end Sys2Proof.Machine
end

