-- ==== Sys2Proof/Machine/Flags.lean ====
section
/-!
DEFINITION. The two flag registers: `fflags` of the scalar F and port-form instructions (04 R79, 07 R172) and `fxflags` of the vector
and matrix instructions (03 R57, R58). Both are sticky.
-/
namespace Sys2Proof.Machine

def bit (b : Bool) (n : Nat) : Nat := if b then 2 ^ n else 0

/-- `fflags` layout of the F extension: NV 4, DZ 3, OF 2, UF 1, NX 0. -/
def Flags.toFflags (f : Flags) : Nat := bit f.nv 4 + bit f.dz 3 + bit f.ovf 2 + bit f.unf 1 + bit f.nx 0
/-- `fxflags` layout: NV 4, OF 3, UF 2, NX 1, IS 0 (01 R12). -/
def Flags.toFxflags (f : Flags) : Nat := bit f.nv 4 + bit f.ovf 3 + bit f.unf 2 + bit f.nx 1 + bit f.isat 0

def Regs.raiseF (r : Regs) (f : Flags) : Regs := { r with fflags := r.fflags ||| f.toFflags }
def Regs.raiseFx (r : Regs) (f : Flags) : Regs := { r with fxflags := r.fxflags ||| f.toFxflags }

/-- Flags of a scalar instruction of the current thread. -/
def State.raiseF (s : State) (f : Flags) : State := s.modMe (fun t => t.modRegs (·.raiseF f))
/-- Flags of a vector or matrix instruction of tile `g`. -/
def State.raiseFx (s : State) (g : Nat) (f : Flags) : State := s.modThread g 0 (fun t => t.modRegs (·.raiseFx f))

end Sys2Proof.Machine
end

