-- ==== Sys2Proof/WellFormed.lean ====
section
/-!
DEFINITION. Which instructions are well formed: the field limits and the reserved fields of 02 R32 to R40, and the field
limits that the instruction chapters add. A word that breaks one of these limits is illegal (02 R30, R32). The steps that
have no encoding carry no field limits.
-/
namespace Sys2Proof

/-- The integer element codes 000 to 011 (02 R34). -/
def etInt (et : Nat) : Bool := decide (et ≤ 3)
/-- The floating-point element codes 100 to 110 (02 R34). -/
def etFp (et : Nat) : Bool := decide (4 ≤ et) && decide (et ≤ 6)

def CR.bounded (o : CR) : Bool := decide (o.rd < 32) && decide (o.rs1 < 32) && decide (o.rs2 < 32)
def CV.bounded (o : CV) : Bool :=
  decide (o.et < 8) && decide (o.pg < 4) && decide (o.f2 < 32) && decide (o.f1 < 32) && decide (o.fd < 32)
def VU.bounded (o : VU) : Bool := decide (o.et < 8) && decide (o.pg < 4) && decide (o.f1 < 32) && decide (o.fd < 32)
def MM.bounded (o : MM) : Bool := decide (o.fs < 32) && decide (o.rs2 < 32) && decide (o.rs1 < 32) && decide (o.acc < 4)

/-- 02 R33: a K = 1 source is a port 0 to 3 or a stream register 8 to 15; a K = 1 destination is a port. -/
def CP.wf (o : CP) : Bool :=
  decide (o.d < 32) && decide (o.a < 32) && decide (o.b < 32)
  && (!o.kd || decide (o.d < 4))
  && (!o.k1 || decide (o.a < 4) || (decide (8 ≤ o.a) && decide (o.a < 16)))
  && (!o.k2 || decide (o.b < 4) || (decide (8 ≤ o.b) && decide (o.b < 16)))

/-- How many registers an offset vector of `vgath` and `vscat` takes beyond the first (05 R123). -/
def offsetRegs (et : Nat) : Nat := if et = 0 ∨ et = 7 then 3 else if et = 1 ∨ et = 4 ∨ et = 5 then 1 else 0

/-- The shapes of the integer words: U format, immediate, 6- and 5-bit shift, register, unary (fixed rs2). -/
inductive IntKind where
  | u | i | sh6 | sh5 | r | un
  deriving DecidableEq, Repr

/-- One row of the integer encoding table: shape, major opcode, funct3, funct7 (funct6 for `sh6`), fixed rs2. -/
structure IntRow where
  kind : IntKind
  opc : Nat
  f3 : Nat
  f7 : Nat
  r2 : Nat
  deriving DecidableEq, Repr

/-- The standard encodings of RV64I, M, Zba and Zbb (02 R40). PRESUMED from the RISC-V specification that R40 names. -/
def intRow : IntOp → IntRow
  | .lui => ⟨.u, 0x37, 0, 0, 0⟩ | .auipc => ⟨.u, 0x17, 0, 0, 0⟩
  | .addi => ⟨.i, 0x13, 0, 0, 0⟩ | .slti => ⟨.i, 0x13, 2, 0, 0⟩ | .sltiu => ⟨.i, 0x13, 3, 0, 0⟩
  | .xori => ⟨.i, 0x13, 4, 0, 0⟩ | .ori => ⟨.i, 0x13, 6, 0, 0⟩ | .andi => ⟨.i, 0x13, 7, 0, 0⟩
  | .slli => ⟨.sh6, 0x13, 1, 0x00, 0⟩ | .srli => ⟨.sh6, 0x13, 5, 0x00, 0⟩ | .srai => ⟨.sh6, 0x13, 5, 0x10, 0⟩
  | .addiw => ⟨.i, 0x1B, 0, 0, 0⟩ | .slliw => ⟨.sh5, 0x1B, 1, 0x00, 0⟩
  | .srliw => ⟨.sh5, 0x1B, 5, 0x00, 0⟩ | .sraiw => ⟨.sh5, 0x1B, 5, 0x20, 0⟩
  | .add => ⟨.r, 0x33, 0, 0x00, 0⟩ | .sub => ⟨.r, 0x33, 0, 0x20, 0⟩ | .sll => ⟨.r, 0x33, 1, 0x00, 0⟩
  | .slt => ⟨.r, 0x33, 2, 0x00, 0⟩ | .sltu => ⟨.r, 0x33, 3, 0x00, 0⟩ | .xor => ⟨.r, 0x33, 4, 0x00, 0⟩
  | .srl => ⟨.r, 0x33, 5, 0x00, 0⟩ | .sra => ⟨.r, 0x33, 5, 0x20, 0⟩ | .or => ⟨.r, 0x33, 6, 0x00, 0⟩
  | .and => ⟨.r, 0x33, 7, 0x00, 0⟩
  | .addw => ⟨.r, 0x3B, 0, 0x00, 0⟩ | .subw => ⟨.r, 0x3B, 0, 0x20, 0⟩ | .sllw => ⟨.r, 0x3B, 1, 0x00, 0⟩
  | .srlw => ⟨.r, 0x3B, 5, 0x00, 0⟩ | .sraw => ⟨.r, 0x3B, 5, 0x20, 0⟩
  | .mul => ⟨.r, 0x33, 0, 0x01, 0⟩ | .mulh => ⟨.r, 0x33, 1, 0x01, 0⟩ | .mulhsu => ⟨.r, 0x33, 2, 0x01, 0⟩
  | .mulhu => ⟨.r, 0x33, 3, 0x01, 0⟩ | .div => ⟨.r, 0x33, 4, 0x01, 0⟩ | .divu => ⟨.r, 0x33, 5, 0x01, 0⟩
  | .rem => ⟨.r, 0x33, 6, 0x01, 0⟩ | .remu => ⟨.r, 0x33, 7, 0x01, 0⟩
  | .mulw => ⟨.r, 0x3B, 0, 0x01, 0⟩ | .divw => ⟨.r, 0x3B, 4, 0x01, 0⟩ | .divuw => ⟨.r, 0x3B, 5, 0x01, 0⟩
  | .remw => ⟨.r, 0x3B, 6, 0x01, 0⟩ | .remuw => ⟨.r, 0x3B, 7, 0x01, 0⟩
  | .adduw => ⟨.r, 0x3B, 0, 0x04, 0⟩ | .sh1add => ⟨.r, 0x33, 2, 0x10, 0⟩ | .sh2add => ⟨.r, 0x33, 4, 0x10, 0⟩
  | .sh3add => ⟨.r, 0x33, 6, 0x10, 0⟩ | .sh1adduw => ⟨.r, 0x3B, 2, 0x10, 0⟩ | .sh2adduw => ⟨.r, 0x3B, 4, 0x10, 0⟩
  | .sh3adduw => ⟨.r, 0x3B, 6, 0x10, 0⟩ | .slliuw => ⟨.sh6, 0x1B, 1, 0x02, 0⟩
  | .andn => ⟨.r, 0x33, 7, 0x20, 0⟩ | .orn => ⟨.r, 0x33, 6, 0x20, 0⟩ | .xnor => ⟨.r, 0x33, 4, 0x20, 0⟩
  | .clz => ⟨.un, 0x13, 1, 0x30, 0⟩ | .ctz => ⟨.un, 0x13, 1, 0x30, 1⟩ | .cpop => ⟨.un, 0x13, 1, 0x30, 2⟩
  | .clzw => ⟨.un, 0x1B, 1, 0x30, 0⟩ | .ctzw => ⟨.un, 0x1B, 1, 0x30, 1⟩ | .cpopw => ⟨.un, 0x1B, 1, 0x30, 2⟩
  | .max => ⟨.r, 0x33, 6, 0x05, 0⟩ | .maxu => ⟨.r, 0x33, 7, 0x05, 0⟩
  | .min => ⟨.r, 0x33, 4, 0x05, 0⟩ | .minu => ⟨.r, 0x33, 5, 0x05, 0⟩
  | .sextb => ⟨.un, 0x13, 1, 0x30, 4⟩ | .sexth => ⟨.un, 0x13, 1, 0x30, 5⟩ | .zexth => ⟨.un, 0x3B, 4, 0x04, 0⟩
  | .rol => ⟨.r, 0x33, 1, 0x30, 0⟩ | .ror => ⟨.r, 0x33, 5, 0x30, 0⟩ | .rori => ⟨.sh6, 0x13, 5, 0x18, 0⟩
  | .rolw => ⟨.r, 0x3B, 1, 0x30, 0⟩ | .rorw => ⟨.r, 0x3B, 5, 0x30, 0⟩ | .roriw => ⟨.sh5, 0x1B, 5, 0x30, 0⟩
  | .orcb => ⟨.un, 0x13, 5, 0x14, 7⟩ | .rev8 => ⟨.un, 0x13, 5, 0x35, 24⟩

/-- What an integer word of each shape may carry: the fields its shape lacks are zero. -/
def intWf (op : IntOp) (rd rs1 rs2 : Nat) (imm : Int) : Bool :=
  decide (rd < 32) && decide (rs1 < 32) && decide (rs2 < 32) &&
  match (intRow op).kind with
  | .u => decide (rs1 = 0) && decide (rs2 = 0) && decide (-524288 ≤ imm) && decide (imm < 524288)
  | .i => decide (rs2 = 0) && decide (-2048 ≤ imm) && decide (imm < 2048)
  | .sh6 => decide (rs2 = 0) && decide (0 ≤ imm) && decide (imm < 64)
  | .sh5 => decide (rs2 = 0) && decide (0 ≤ imm) && decide (imm < 32)
  | .r => decide (imm = 0)
  | .un => decide (rs2 = 0) && decide (imm = 0)

/-- How a floating-point word is shaped: four operands, three, two with rounding, or with a fixed rm field. -/
inductive FpKind where
  | r4 | r3 | r2 | r3f | r2f
  deriving DecidableEq, Repr

/-- One row of the RV64F table: shape, major opcode, funct7, the fixed rm field, the fixed rs2 field. -/
structure FpRow where
  kind : FpKind
  opc : Nat
  f7 : Nat
  rm : Nat
  r2 : Nat
  deriving DecidableEq, Repr

/-- The standard encodings of RV64F (02 R30, R40), fmt = 00. PRESUMED from the RISC-V specification that R40 names. -/
def fpRow : FpOp → FpRow
  | .fmadd => ⟨.r4, 0x43, 0, 0, 0⟩ | .fmsub => ⟨.r4, 0x47, 0, 0, 0⟩
  | .fnmsub => ⟨.r4, 0x4B, 0, 0, 0⟩ | .fnmadd => ⟨.r4, 0x4F, 0, 0, 0⟩
  | .fadd => ⟨.r3, 0x53, 0x00, 0, 0⟩ | .fsub => ⟨.r3, 0x53, 0x04, 0, 0⟩ | .fmul => ⟨.r3, 0x53, 0x08, 0, 0⟩
  | .fdiv => ⟨.r3, 0x53, 0x0C, 0, 0⟩ | .fsqrt => ⟨.r2, 0x53, 0x2C, 0, 0⟩
  | .fsgnj => ⟨.r3f, 0x53, 0x10, 0, 0⟩ | .fsgnjn => ⟨.r3f, 0x53, 0x10, 1, 0⟩ | .fsgnjx => ⟨.r3f, 0x53, 0x10, 2, 0⟩
  | .fmin => ⟨.r3f, 0x53, 0x14, 0, 0⟩ | .fmax => ⟨.r3f, 0x53, 0x14, 1, 0⟩
  | .fcvtws => ⟨.r2, 0x53, 0x60, 0, 0⟩ | .fcvtwus => ⟨.r2, 0x53, 0x60, 0, 1⟩
  | .fcvtls => ⟨.r2, 0x53, 0x60, 0, 2⟩ | .fcvtlus => ⟨.r2, 0x53, 0x60, 0, 3⟩
  | .fcvtsw => ⟨.r2, 0x53, 0x68, 0, 0⟩ | .fcvtswu => ⟨.r2, 0x53, 0x68, 0, 1⟩
  | .fcvtsl => ⟨.r2, 0x53, 0x68, 0, 2⟩ | .fcvtslu => ⟨.r2, 0x53, 0x68, 0, 3⟩
  | .fmvxw => ⟨.r2f, 0x53, 0x70, 0, 0⟩ | .fmvwx => ⟨.r2f, 0x53, 0x78, 0, 0⟩
  | .feq => ⟨.r3f, 0x53, 0x50, 2, 0⟩ | .flt => ⟨.r3f, 0x53, 0x50, 1, 0⟩ | .fle => ⟨.r3f, 0x53, 0x50, 0, 0⟩
  | .fclass => ⟨.r2f, 0x53, 0x70, 1, 0⟩

/-- A static rounding mode of 5 or 6 is reserved by the F extension; the forms with a fixed rm field carry rm 0 here. -/
def fpWf (op : FpOp) (rm rd rs1 rs2 rs3 : Nat) : Bool :=
  decide (rd < 32) && decide (rs1 < 32) && decide (rs2 < 32) && decide (rs3 < 32) &&
  match (fpRow op).kind with
  | .r4 => decide (rm < 8) && decide (rm ≠ 5) && decide (rm ≠ 6)
  | .r3 => decide (rm < 8) && decide (rm ≠ 5) && decide (rm ≠ 6) && decide (rs3 = 0)
  | .r2 => decide (rm < 8) && decide (rm ≠ 5) && decide (rm ≠ 6) && decide (rs3 = 0) && decide (rs2 = 0)
  | .r3f => decide (rm = 0) && decide (rs3 = 0)
  | .r2f => decide (rm = 0) && decide (rs3 = 0) && decide (rs2 = 0)

def CsrArgs.bounded (o : CsrArgs) : Bool := decide (o.csr < 4096) && decide (o.rd < 32) && decide (o.src < 32)

/-- A Zicsr word writes unless it is a set or clear with a zero source field. -/
def CsrArgs.writes (o : CsrArgs) : Bool := o.op == .rw || o.src != 0

/-- The CSRs whose accesses the table lists as steps of their own: errword (any access), fxflags (any access),
qwdomain and qbind0 to qbind7 (writing accesses). -/
def CsrArgs.isErrword (o : CsrArgs) : Bool := o.csr == 0xCC6
def CsrArgs.isFxflags (o : CsrArgs) : Bool := o.csr == 0x80B
def CsrArgs.isQwdomainWrite (o : CsrArgs) : Bool := o.csr == 0x80C && o.writes
def CsrArgs.isQbindWrite (o : CsrArgs) : Bool := decide (0x810 ≤ o.csr) && decide (o.csr ≤ 0x817) && o.writes

/-- The limits of every word (02 R32 to R40, 04 R80, R84, 05 R98, R114, R115, R123, R129, 06 R143, 08 R195, 15 R333). -/
def wellFormed : Instr → Bool
  | .madd o | .msub o | .mand o | .mor o | .mxor o | .msll o | .msrl o | .msra o | .mmin o | .mmax o | .mminu o
  | .mmaxu o | .mfadd o | .mfmul o | .mfmax o => o.wf
  | .mmov o => o.wf && !o.k2 && decide (o.b = 0)
  | .send o | .sendv o => o.bounded && decide (o.rd < 12)
  | .mvc o => o.bounded && decide (o.rs2 = 0)
  | .qbind o => o.bounded && decide (o.rd < 8)
  | .qfree o => decide (o.rd < 8) && decide (o.rs1 = 0) && decide (o.rs2 = 0)
  | .qcount o | .qpopv o => decide (o.rd < 32) && decide (o.rs1 < 8) && decide (o.rs2 = 0)
  | .tstamp o | .qwroot o | .qwheld o | .ginfo o | .rng64 o | .rngf o | .rngv o | .slice o | .errinfo o
  | .cqtryProbe o | .cqctlFree o | .mprog o => decide (o.rd < 32) && decide (o.rs1 = 0) && decide (o.rs2 = 0)
  | .slotwait o | .pwrhint o | .ldrop o | .spawn o | .jdec o | .qwdone o | .rngjump o =>
      decide (o.rd = 0) && decide (o.rs1 < 32) && decide (o.rs2 = 0)
  | .lld o | .ldec o | .qwait o | .barrive o | .gjoin o => decide (o.rd < 32) && decide (o.rs1 < 32) && decide (o.rs2 = 0)
  | .lst o | .spawnt o | .bwait o | .cwaitge o => decide (o.rd = 0) && decide (o.rs1 < 32) && decide (o.rs2 < 32)
  | .lcrc o | .lcvt o | .ctest o => o.bounded
  | .lcommit o | .tend o | .qwret o | .gleave o | .grejoin o | .gsync o | .npenter o | .npexit o =>
      decide (o.rd = 0) && decide (o.rs1 = 0) && decide (o.rs2 = 0)
  | .linfo o => decide (o.rd < 32) && decide (o.rs1 < 7) && decide (o.rs2 = 0)
  | .taskinfo o =>
      decide (o.rd < 32) && decide (o.rs1 < 32) && decide (o.rs2 = 0) && (decide (o.rs1 < 9) || decide (16 ≤ o.rs1))
  | .fencex _ p q sc => decide (p < 16) && decide (q < 16) && decide (sc < 6)
  | .lpset _ len rs1 => decide (1 ≤ len) && decide (len < 2048) && decide (rs1 < 32)
  | .rep _ count mask step => decide (1 ≤ count) && decide (count ≤ 64) && decide (mask < 8) && decide (step < 4)
  | .vadd o | .vsub o | .vmul o | .vfma o | .vmin o | .vmax o => o.bounded && decide (o.et ≠ 7)
  | .vbit o => o.bounded && decide (o.et < 4)
  | .vshift o | .vsel o | .vld o | .vst o => o.bounded
  | .vcmp o => o.bounded && decide (o.et ≠ 7)
  | .vgath o | .vscat o => o.bounded && decide (o.f2 + offsetRegs o.et < 32)
  | .vneg o | .vabs o | .vredsum o | .vredmax o | .vredmin o => o.bounded && decide (o.et ≠ 7)
  | .vmov o | .vperm o => o.bounded
  | .vsplatx o => o.bounded && etInt o.et
  | .vsplatf o | .vrcp o | .vrsqrt o | .vexp2 o | .vlog2 o | .vtanh o | .vsigm o => o.bounded && etFp o.et
  | .vextx o => o.bounded && decide (o.pg = 0)
  | .viota o => o.bounded && etInt o.et && decide (o.f1 = 0)
  | .vquery o => o.bounded && decide (o.et = 0) && decide (o.pg = 0) && decide (o.f1 = 0)
  | .vcvt sub o =>
      o.bounded && ((decide (16 ≤ sub) && decide (sub ≤ 22) && decide (sub ≠ 16 + o.et))
        || (decide (23 ≤ sub) && decide (sub ≤ 26) && (etFp o.et || (decide (sub = 24) && decide (o.et = 7)))))
  | .vcvtsr sub o =>
      o.bounded && ((decide (27 ≤ sub) && decide (sub ≤ 29) && decide (o.et = 6))
        || (decide (28 ≤ sub) && decide (sub ≤ 29) && decide (o.et = 4)))
  | .pand o | .por o | .pxor o => o.bounded && decide (o.et = 0) && decide (o.fd < 8)
  | .pnot o | .pfirst o => o.bounded && decide (o.et = 0) && decide (o.fd < 8) && decide (o.f1 < 8)
  | .pcount o => o.bounded && decide (o.et = 0) && decide (o.pg = 0) && decide (o.f1 < 8)
  | .pwhilelt o => o.bounded && decide (o.fd < 8) && decide (o.f1 ≤ 30)
  | .mmaE4e4 o | .mmaE4e5 o | .mmaE5e4 o | .mmaE5e5 o | .mmaE4f6 o | .mmaE4f4 o | .mmaF4f4 o | .mconv o => o.bounded
  | .mmaBf o | .mmaI8 o => o.bounded && decide (o.fs = 0)
  | .maccZero o => decide (o.rd < 4) && decide (o.rs1 = 0) && decide (o.rs2 = 0)
  | .maccSt o => decide (o.rd < 4) && decide (o.rs1 < 32) && decide (o.rs2 = 1)
  | .maccStp o => decide (o.rd < 4) && decide (o.rs1 < 32) && decide (o.rs2 = 2)
  | .maccLdp o => decide (o.rd < 4) && decide (o.rs1 < 32) && decide (o.rs2 = 3)
  | .maccRow o => decide (o.rd < 32) && decide (o.rs1 < 32) && decide (o.rs2 = 4)
  | .cqpush o => decide (o.rd = 0) && decide (1 ≤ o.rs1) && decide (o.rs1 ≤ 28) && decide (o.rs2 = 0)
  | .cqtry o => decide (o.rd < 32) && decide (1 ≤ o.rs1) && decide (o.rs1 ≤ 28) && decide (o.rs2 = 0)
  | .cqctlWait o => decide (o.rd = 0) && decide (o.rs1 = 0) && decide (o.rs2 = 1)
  | .load _ rd rs1 imm => decide (rd < 32) && decide (rs1 < 32) && decide (-2048 ≤ imm) && decide (imm < 2048)
  | .store _ rs1 rs2 imm => decide (rs1 < 32) && decide (rs2 < 32) && decide (-2048 ≤ imm) && decide (imm < 2048)
  | .amo _ _ _ _ rd rs1 rs2 | .sc _ _ _ rd rs1 rs2 => decide (rd < 32) && decide (rs1 < 32) && decide (rs2 < 32)
  | .lr _ _ _ rd rs1 => decide (rd < 32) && decide (rs1 < 32)
  | .fence fm p q rd rs1 =>
      decide (fm < 16) && decide (p < 16) && decide (q < 16) && decide (rd < 32) && decide (rs1 < 32)
        && !(decide (fm = 8) && decide (p = 3) && decide (q = 3))
  | .fenceTso rd rs1 => decide (rd < 32) && decide (rs1 < 32)
  | .fenceI rd rs1 imm => decide (rd < 32) && decide (rs1 < 32) && decide (imm < 4096)
  | .csrAccess o => o.bounded && !o.isErrword && !o.isFxflags && !o.isQwdomainWrite && !o.isQbindWrite
  | .errwordRead o => o.bounded && o.isErrword
  | .fxflagsAccess o => o.bounded && o.isFxflags
  | .qwdomainWrite o => o.bounded && o.isQwdomainWrite
  | .qbindCsrWrite o => o.bounded && o.isQbindWrite
  | .controlTransfer op rd rs1 rs2 imm =>
      decide (rd < 32) && decide (rs1 < 32) && decide (rs2 < 32) &&
      match op with
      | .jal => decide (rs1 = 0) && decide (rs2 = 0) && decide (-1048576 ≤ imm) && decide (imm < 1048576)
                  && decide (imm % 2 = 0)
      | .jalr => decide (rs2 = 0) && decide (-2048 ≤ imm) && decide (imm < 2048)
      | _ => decide (rd = 0) && decide (-4096 ≤ imm) && decide (imm < 4096) && decide (imm % 2 = 0)
  | .integerOp op rd rs1 rs2 imm => intWf op rd rs1 rs2 imm
  | .fpOp op rm rd rs1 rs2 rs3 => fpWf op rm rd rs1 rs2 rs3
  | _ => true

end Sys2Proof
end

