-- ==== Sys2Proof/Decode.lean ====
section
/-!
DEFINITION. Decoding and encoding of instruction words (02 R29 to R40): total, rejecting by name.

A 32-bit word is split into the seven fields that every format shares (02 R32): S, bits [30:25], [24:20], [19:15],
[14:12], [11:7] and [6:0]. The opcode map picks at most one form for the fields; the form's limits are `wellFormed`.
The encoder builds the same fields from the same tables.
-/
namespace Sys2Proof

/-- Why a word is no instruction (02 R30, R32). Every one of them makes the thread take the illegal-instruction trap. -/
inductive Reject where
  /-- bits [1:0] are not 0b11: the C extension is not implemented (02 R30) -/
  | compressed
  /-- a major opcode whose fate is illegal (02 R30) -/
  | majorOpcode
  /-- an unallocated code of an allocated major opcode (02 R35 to R39) -/
  | unallocated
  /-- a reserved field that is not zero, or a field value outside its limits (02 R32) -/
  | fieldLimit
  deriving DecidableEq, Repr

inductive Decoded where
  | ok (i : Instr)
  | reject (why : Reject)
  deriving DecidableEq, Repr

/-- Bits [lo + len - 1 : lo] of a number. -/
def fieldAt (w lo len : Nat) : Nat := w / 2 ^ lo % 2 ^ len

/-- A truth value as a bit. -/
def bitOf (b : Bool) : Nat := if b then 1 else 0

/-- The fields common to every format. -/
structure Raw where
  s : Nat
  f6 : Nat
  rs2 : Nat
  rs1 : Nat
  f3 : Nat
  rd : Nat
  opc : Nat
  deriving DecidableEq, Repr

def rawOfWord (w : Nat) : Raw :=
  { s := fieldAt w 31 1, f6 := fieldAt w 25 6, rs2 := fieldAt w 20 5, rs1 := fieldAt w 15 5,
    f3 := fieldAt w 12 3, rd := fieldAt w 7 5, opc := fieldAt w 0 7 }

def wordOfRaw (r : Raw) : Nat :=
  r.s * 2147483648 + r.f6 * 33554432 + r.rs2 * 1048576 + r.rs1 * 32768 + r.f3 * 4096 + r.rd * 128 + r.opc

/-- A number below `2 * half` read as two's complement. -/
def signedOf (u half : Nat) : Int := if u < half then (u : Int) else (u : Int) - 2 * (half : Int)
/-- The two's complement code of a number, of width `2 * half`. -/
def codeOf (v : Int) (half : Nat) : Nat := (v % (2 * (half : Int))).toNat

def rawCR (r : Raw) : CR := ⟨r.s == 1, r.rd, r.rs1, r.rs2⟩
def rawCP (r : Raw) : CP :=
  ⟨r.s == 1, r.f6 / 32 == 1, r.f6 / 16 % 2 == 1, r.f6 / 8 % 2 == 1, r.rd, r.rs1, r.rs2⟩
def rawCV (r : Raw) : CV := ⟨r.s == 1, r.f6 / 8, r.f6 / 2 % 4, r.rs2, r.rs1, r.rd⟩
def rawVU (r : Raw) : VU := ⟨r.s == 1, r.f6 / 8, r.f6 / 2 % 4, r.rs1, r.rd⟩
def rawMM (r : Raw) : MM :=
  ⟨r.s == 1, r.f6 / 2, r.rs2, r.rs1, r.rd / 16 == 1, r.rd / 8 % 2 == 1, r.rd / 4 % 2 == 1, r.rd % 4⟩

/-- The immediates of the base formats. -/
def immI (r : Raw) : Int := signedOf (r.s * 2048 + r.f6 * 32 + r.rs2) 2048
def immS (r : Raw) : Int := signedOf (r.s * 2048 + r.f6 * 32 + r.rd) 2048
def immB (r : Raw) : Int := signedOf (r.s * 4096 + r.rd % 2 * 2048 + r.f6 * 32 + r.rd / 2 * 2) 4096
def immU (r : Raw) : Int := signedOf (r.s * 524288 + r.f6 * 8192 + r.rs2 * 256 + r.rs1 * 8 + r.f3) 524288
def immJ (r : Raw) : Int :=
  signedOf (r.s * 1048576 + (r.rs1 * 8 + r.f3) * 4096 + r.rs2 % 2 * 2048 + r.f6 * 32 + r.rs2 / 2 * 2) 1048576

/-- 02 R35, port-form codes. -/
def formCP (r : Raw) : Option Instr :=
  let o := rawCP r
  match r.f3 * 8 + r.f6 % 8 with
  | 0 => some (.madd o) | 1 => some (.msub o) | 2 => some (.mand o) | 3 => some (.mor o) | 4 => some (.mxor o)
  | 5 => some (.msll o) | 6 => some (.msrl o) | 7 => some (.msra o) | 8 => some (.mmin o) | 9 => some (.mmax o)
  | 10 => some (.mminu o) | 11 => some (.mmaxu o) | 12 => some (.mmov o) | 13 => some (.mfadd o)
  | 14 => some (.mfmul o) | 15 => some (.mfmax o) | _ => none

/-- 02 R35: custom-0, mesh and messaging. -/
def formCustom0 (r : Raw) : Option Instr :=
  let o := rawCR r
  match r.f3 with
  | 0 => formCP r
  | 1 => formCP r
  | 2 => match r.f6 with
    | 0 => some (.send o) | 1 => some (.sendv o) | 4 => some (.mvc o) | _ => none
  | 3 => match r.f6 with
    | 0 => some (.qbind o) | 1 => some (.qfree o) | 2 => some (.qcount o) | 3 => some (.qpopv o) | _ => none
  | 4 => match r.f6 with
    | 0 => some (.tstamp o) | 1 => some (.slotwait o) | 2 => some (.pwrhint o) | _ => none
  | 5 => match r.f6 with
    | 0 => some (.lld o) | 1 => some (.lst o) | 2 => some (.lcrc o) | 3 => some (.ldec o) | 4 => some (.lcvt o)
    | 5 => some (.lcommit o) | 6 => some (.ldrop o) | 7 => some (.linfo o) | _ => none
  | _ => none

/-- 02 R36, R37: custom-1, tasks, synchronisation and system. -/
def formCustom1 (r : Raw) : Option Instr :=
  let o := rawCR r
  match r.f3 with
  | 0 => match r.f6 with
    | 0 => some (.spawn o) | 1 => some (.spawnt o) | 2 => some (.tend o) | 3 => some (.jdec o)
    | 4 => some (.taskinfo o) | _ => none
  | 1 => match r.f6 with
    | 0 => some (.qwroot o) | 1 => some (.qwait o) | 2 => some (.qwheld o) | 3 => some (.qwret o)
    | 4 => some (.qwdone o) | _ => none
  | 2 => match r.f6 with
    | 0 => some (.barrive o) | 1 => some (.bwait o) | 2 => some (.cwaitge o) | 3 => some (.ctest o) | _ => none
  | 3 => match r.f6 with
    | 0 => some (.gjoin o) | 1 => some (.gleave o) | 2 => some (.grejoin o) | 3 => some (.gsync o)
    | 4 => some (.ginfo o) | _ => none
  | 4 => if r.rd = 0 ∧ r.rs1 = 0 then
      some (.fencex (r.s == 1) (r.f6 / 4) (r.f6 % 4 * 4 + r.rs2 / 8) (r.rs2 % 8)) else none
  | 5 => if r.rd = 0 then some (.lpset (r.s == 1) (r.f6 * 32 + r.rs2) r.rs1) else none
  | 6 => if r.rd = 0 ∧ r.rs1 = 0 then some (.rep (r.s == 1) (r.f6 + 1) (r.rs2 / 4) (r.rs2 % 4)) else none
  | 7 => match r.f6 with
    | 0 => some (.rng64 o) | 1 => some (.rngf o) | 2 => some (.rngv o) | 3 => some (.rngjump o)
    | 4 => some (.npenter o) | 5 => some (.npexit o) | 6 => some (.slice o) | 7 => some (.errinfo o) | _ => none
  | _ => none

/-- 02 R38, the `vun` sub-operations. -/
def formVun (r : Raw) : Option Instr :=
  let o := rawVU r
  match r.rs2 with
  | 0 => some (.vneg o) | 1 => some (.vabs o) | 2 => some (.vmov o) | 3 => some (.vsplatx o) | 4 => some (.vsplatf o)
  | 5 => some (.vextx o) | 6 => some (.vrcp o) | 7 => some (.vrsqrt o) | 8 => some (.vexp2 o) | 9 => some (.vlog2 o)
  | 10 => some (.vtanh o) | 11 => some (.vsigm o) | 12 => some (.vredsum o) | 13 => some (.vredmax o)
  | 14 => some (.vredmin o) | 15 => some (.viota o) | 27 => some (.vcvtsr 27 o) | 28 => some (.vcvtsr 28 o)
  | 29 => some (.vcvtsr 29 o) | 30 => some (.vquery o) | 31 => some (.vperm o)
  | n => some (.vcvt n o)

/-- 02 R38, the `vpr` sub-operations. -/
def formVpr (r : Raw) : Option Instr :=
  let o := rawVU r
  match r.rs2 with
  | 0 => some (.pand o) | 1 => some (.por o) | 2 => some (.pxor o) | 3 => some (.pnot o) | 4 => some (.pcount o)
  | 5 => some (.pfirst o) | 6 => some (.pwhilelt o) | _ => none

/-- 02 R38: custom-2, vector. c4 is {bit 25, f3} (02 R32). -/
def formCustom2 (r : Raw) : Option Instr :=
  let o := rawCV r
  match r.f6 % 2 * 8 + r.f3 with
  | 0 => some (.vadd o) | 1 => some (.vsub o) | 2 => some (.vmul o) | 3 => some (.vfma o) | 4 => some (.vmin o)
  | 5 => some (.vmax o) | 6 => some (.vbit o) | 7 => some (.vshift o) | 8 => some (.vcmp o) | 9 => some (.vsel o)
  | 10 => some (.vld o) | 11 => some (.vst o) | 12 => some (.vgath o) | 13 => some (.vscat o)
  | 14 => formVun r | 15 => formVpr r | _ => none

/-- 02 R39: custom-3, matrix and copy. -/
def formCustom3 (r : Raw) : Option Instr :=
  let o := rawMM r
  let c := rawCR r
  match r.f6 % 2 * 8 + r.f3 with
  | 0 => some (.mmaE4e4 o) | 1 => some (.mmaE4e5 o) | 2 => some (.mmaE5e4 o) | 3 => some (.mmaE5e5 o)
  | 4 => some (.mmaE4f6 o) | 5 => some (.mmaE4f4 o) | 6 => some (.mmaF4f4 o) | 7 => some (.mmaBf o)
  | 8 => some (.mmaI8 o) | 9 => some (.mconv o)
  | 10 => if r.f6 = 1 then (match r.rs2 with
      | 0 => some (.maccZero c) | 1 => some (.maccSt c) | 2 => some (.maccStp c) | 3 => some (.maccLdp c)
      | 4 => some (.maccRow c) | _ => none) else none
  | 11 => if r.f6 = 1 then some (.cqpush c) else none
  | 12 => if r.f6 = 1 then (if r.rs1 = 0 then some (.cqtryProbe c) else some (.cqtry c)) else none
  | 13 => if r.f6 = 1 then (match r.rs2 with
      | 0 => some (.cqctlFree c) | 1 => some (.cqctlWait c) | _ => none) else none
  | 14 => if r.f6 = 1 then some (.mprog c) else none
  | _ => none

/-- The operations of one major opcode, in table order. -/
def intOps : List IntOp :=
  [.lui, .auipc, .addi, .slti, .sltiu, .xori, .ori, .andi, .slli, .srli, .srai, .addiw, .slliw, .srliw, .sraiw,
   .add, .sub, .sll, .slt, .sltu, .xor, .srl, .sra, .or, .and, .addw, .subw, .sllw, .srlw, .sraw,
   .mul, .mulh, .mulhsu, .mulhu, .div, .divu, .rem, .remu, .mulw, .divw, .divuw, .remw, .remuw,
   .adduw, .sh1add, .sh2add, .sh3add, .sh1adduw, .sh2adduw, .sh3adduw, .slliuw,
   .andn, .orn, .xnor, .clz, .ctz, .cpop, .clzw, .ctzw, .cpopw, .max, .maxu, .min, .minu, .sextb, .sexth, .zexth,
   .rol, .ror, .rori, .rolw, .rorw, .roriw, .orcb, .rev8]

/-- Does the row fit the fields? -/
def intFits (r : Raw) (row : IntRow) : Bool :=
  r.opc == row.opc &&
  match row.kind with
  | .u => true
  | .i => r.f3 == row.f3
  | .sh6 => r.f3 == row.f3 && r.s * 32 + r.f6 / 2 == row.f7
  | .sh5 => r.f3 == row.f3 && r.s * 64 + r.f6 == row.f7
  | .r => r.f3 == row.f3 && r.s * 64 + r.f6 == row.f7
  | .un => r.f3 == row.f3 && r.s * 64 + r.f6 == row.f7 && r.rs2 == row.r2

def formInt (r : Raw) : Option Instr :=
  match intOps.find? (fun op => intFits r (intRow op)) with
  | none => none
  | some op => match (intRow op).kind with
    | .u => some (.integerOp op r.rd 0 0 (immU r))
    | .i => some (.integerOp op r.rd r.rs1 0 (immI r))
    | .sh6 => some (.integerOp op r.rd r.rs1 0 (Int.ofNat (r.f6 % 2 * 32 + r.rs2)))
    | .sh5 => some (.integerOp op r.rd r.rs1 0 (Int.ofNat r.rs2))
    | .r => some (.integerOp op r.rd r.rs1 r.rs2 0)
    | .un => some (.integerOp op r.rd r.rs1 0 0)

def fpOps : List FpOp :=
  [.fmadd, .fmsub, .fnmsub, .fnmadd, .fadd, .fsub, .fmul, .fdiv, .fsqrt, .fsgnj, .fsgnjn, .fsgnjx, .fmin, .fmax,
   .fcvtws, .fcvtwus, .fcvtls, .fcvtlus, .fcvtsw, .fcvtswu, .fcvtsl, .fcvtslu, .fmvxw, .fmvwx, .feq, .flt, .fle, .fclass]

/-- Does the row fit the fields? The fused forms hold rs3 in bits [31:27] and fmt, which must be 00, in [26:25]. -/
def fpFits (r : Raw) (row : FpRow) : Bool :=
  r.opc == row.opc &&
  match row.kind with
  | .r4 => r.f6 % 4 == 0
  | .r3 => r.s * 64 + r.f6 == row.f7
  | .r2 => r.s * 64 + r.f6 == row.f7 && r.rs2 == row.r2
  | .r3f => r.s * 64 + r.f6 == row.f7 && r.f3 == row.rm
  | .r2f => r.s * 64 + r.f6 == row.f7 && r.f3 == row.rm && r.rs2 == row.r2

def formFp (r : Raw) : Option Instr :=
  match fpOps.find? (fun op => fpFits r (fpRow op)) with
  | none => none
  | some op => match (fpRow op).kind with
    | .r4 => some (.fpOp op r.f3 r.rd r.rs1 r.rs2 (r.s * 16 + r.f6 / 4))
    | .r3 => some (.fpOp op r.f3 r.rd r.rs1 r.rs2 0)
    | .r2 => some (.fpOp op r.f3 r.rd r.rs1 0 0)
    | .r3f => some (.fpOp op 0 r.rd r.rs1 r.rs2 0)
    | .r2f => some (.fpOp op 0 r.rd r.rs1 0 0)

/-- Zicsr words; the CSRs that the table lists on their own give their own steps. -/
def formCsr (o : CsrArgs) : Instr :=
  if o.isErrword then .errwordRead o
  else if o.isFxflags then .fxflagsAccess o
  else if o.isQwdomainWrite then .qwdomainWrite o
  else if o.isQbindWrite then .qbindCsrWrite o
  else .csrAccess o

/-- 02 R30: SYSTEM. Every privileged encoding other than `wfi` is illegal (01 R16). -/
def formSystem (r : Raw) : Option Instr :=
  let csr := r.s * 2048 + r.f6 * 32 + r.rs2
  match r.f3 with
  | 0 => if r.rd = 0 ∧ r.rs1 = 0 then (match csr with
      | 0 => some .ecall | 1 => some .ebreak | 0x105 => some .wfi | _ => none) else none
  | 1 => some (formCsr ⟨.rw, false, csr, r.rd, r.rs1⟩)
  | 2 => some (formCsr ⟨.rs, false, csr, r.rd, r.rs1⟩)
  | 3 => some (formCsr ⟨.rc, false, csr, r.rd, r.rs1⟩)
  | 5 => some (formCsr ⟨.rw, true, csr, r.rd, r.rs1⟩)
  | 6 => some (formCsr ⟨.rs, true, csr, r.rd, r.rs1⟩)
  | 7 => some (formCsr ⟨.rc, true, csr, r.rd, r.rs1⟩)
  | _ => none

def formLoad (r : Raw) : Option Instr :=
  let k (op : LoadOp) := some (Instr.load op r.rd r.rs1 (immI r))
  match r.f3 with
  | 0 => k .lb | 1 => k .lh | 2 => k .lw | 3 => k .ld | 4 => k .lbu | 5 => k .lhu | 6 => k .lwu | _ => none

def formStore (r : Raw) : Option Instr :=
  let k (op : StoreOp) := some (Instr.store op r.rs1 r.rs2 (immS r))
  match r.f3 with
  | 0 => k .sb | 1 => k .sh | 2 => k .sw | 3 => k .sd | _ => none

/-- RV64A (02 R30, R40): funct5 in bits [31:27], aq [26], rl [25]. -/
def formAmo (r : Raw) : Option Instr :=
  if r.f3 = 2 ∨ r.f3 = 3 then
    let dw := r.f3 == 3
    let aq := r.f6 / 2 % 2 == 1
    let rl := r.f6 % 2 == 1
    let k (op : AmoOp) := some (Instr.amo op dw aq rl r.rd r.rs1 r.rs2)
    match r.s * 16 + r.f6 / 4 with
    | 0 => k .add | 1 => k .swap | 4 => k .xor | 8 => k .or | 12 => k .and | 16 => k .min | 20 => k .max
    | 24 => k .minu | 28 => k .maxu
    | 2 => if r.rs2 = 0 then some (.lr dw aq rl r.rd r.rs1) else none
    | 3 => some (.sc dw aq rl r.rd r.rs1 r.rs2)
    | _ => none
  else none

def formMiscMem (r : Raw) : Option Instr :=
  match r.f3 with
  | 0 =>
    let fm := r.s * 8 + r.f6 / 8
    let p := r.f6 % 8 * 2 + r.rs2 / 16
    let q := r.rs2 % 16
    if fm = 8 ∧ p = 3 ∧ q = 3 then some (.fenceTso r.rd r.rs1) else some (.fence fm p q r.rd r.rs1)
  | 1 => some (.fenceI r.rd r.rs1 (r.s * 2048 + r.f6 * 32 + r.rs2))
  | _ => none

def formBranch (r : Raw) : Option Instr :=
  let k (op : CtlOp) := some (Instr.controlTransfer op 0 r.rs1 r.rs2 (immB r))
  match r.f3 with
  | 0 => k .beq | 1 => k .bne | 4 => k .blt | 5 => k .bge | 6 => k .bltu | 7 => k .bgeu | _ => none

/-- 02 R30: the fates of the major opcodes. -/
inductive Fate where
  | form (i : Option Instr)
  | illegal
  deriving DecidableEq, Repr

def fateOf (r : Raw) : Fate :=
  match r.opc with
  | 0x03 => .form (formLoad r)
  | 0x07 => .form (if r.f3 = 2 then some (.load .flw r.rd r.rs1 (immI r)) else none)
  | 0x0F => .form (formMiscMem r)
  | 0x13 | 0x17 | 0x1B | 0x33 | 0x37 | 0x3B => .form (formInt r)
  | 0x23 => .form (formStore r)
  | 0x27 => .form (if r.f3 = 2 then some (.store .fsw r.rs1 r.rs2 (immS r)) else none)
  | 0x2F => .form (formAmo r)
  | 0x43 | 0x47 | 0x4B | 0x4F | 0x53 => .form (formFp r)
  | 0x63 => .form (formBranch r)
  | 0x67 => .form (if r.f3 = 0 then some (.controlTransfer .jalr r.rd r.rs1 0 (immI r)) else none)
  | 0x6F => .form (some (.controlTransfer .jal r.rd 0 0 (immJ r)))
  | 0x73 => .form (formSystem r)
  | 0x0B => .form (formCustom0 r)
  | 0x2B => .form (formCustom1 r)
  | 0x5B => .form (formCustom2 r)
  | 0x7B => .form (formCustom3 r)
  | _ => .illegal

/-- Decoding of the fields: the opcode map of 02 R30 and R35 to R40, then the limits of the form. -/
def decodeRaw (r : Raw) : Decoded :=
  if r.opc % 4 ≠ 3 then .reject .compressed
  else match fateOf r with
    | .illegal => .reject .majorOpcode
    | .form none => .reject .unallocated
    | .form (some i) => if wellFormed i then .ok i else .reject .fieldLimit

/-- Decoding of a 32-bit word (02 R29). -/
def decode (w : Nat) : Decoded := decodeRaw (rawOfWord w)

/-- A word in its bytes, least significant first (00 R2, 02 R29). -/
def decodeBytes : List Byte → Decoded
  | b0 :: b1 :: b2 :: b3 :: _ => decode (b0.toNat + b1.toNat * 256 + b2.toNat * 65536 + b3.toNat * 16777216)
  | _ => .reject .compressed

/-! Encoding -/

def encR (opc f3 f6 : Nat) (o : CR) : Raw := ⟨bitOf o.s, f6, o.rs2, o.rs1, f3, o.rd, opc⟩
def encP (n : Nat) (o : CP) : Raw :=
  ⟨bitOf o.s, bitOf o.kd * 32 + bitOf o.k1 * 16 + bitOf o.k2 * 8 + n % 8, o.b, o.a, n / 8, o.d, 0x0B⟩
def encV (c4 : Nat) (o : CV) : Raw := ⟨bitOf o.s, o.et * 8 + o.pg * 2 + c4 / 8, o.f2, o.f1, c4 % 8, o.fd, 0x5B⟩
def encU (c4 sub : Nat) (o : VU) : Raw := ⟨bitOf o.s, o.et * 8 + o.pg * 2 + c4 / 8, sub, o.f1, c4 % 8, o.fd, 0x5B⟩
def encM (c4 : Nat) (o : MM) : Raw :=
  ⟨bitOf o.s, o.fs * 2 + c4 / 8, o.rs2, o.rs1, c4 % 8,
    bitOf o.t * 16 + bitOf o.g * 8 + bitOf o.z * 4 + o.acc, 0x7B⟩
def encI (opc f3 rd rs1 u : Nat) : Raw := ⟨u / 2048, u / 32 % 64, u % 32, rs1, f3, rd, opc⟩

def encInt (op : IntOp) (rd rs1 rs2 : Nat) (imm : Int) : Raw :=
  let row := intRow op
  match row.kind with
  | .u => let u := codeOf imm 524288
    ⟨u / 524288, u / 8192 % 64, u / 256 % 32, u / 8 % 32, u % 8, rd, row.opc⟩
  | .i => encI row.opc row.f3 rd rs1 (codeOf imm 2048)
  | .sh6 => ⟨row.f7 / 32, row.f7 % 32 * 2 + imm.toNat / 32, imm.toNat % 32, rs1, row.f3, rd, row.opc⟩
  | .sh5 => ⟨row.f7 / 64, row.f7 % 64, imm.toNat, rs1, row.f3, rd, row.opc⟩
  | .r => ⟨row.f7 / 64, row.f7 % 64, rs2, rs1, row.f3, rd, row.opc⟩
  | .un => ⟨row.f7 / 64, row.f7 % 64, row.r2, rs1, row.f3, rd, row.opc⟩

def encFp (op : FpOp) (rm rd rs1 rs2 rs3 : Nat) : Raw :=
  let row := fpRow op
  match row.kind with
  | .r4 => ⟨rs3 / 16, rs3 % 16 * 4, rs2, rs1, rm, rd, row.opc⟩
  | .r3 => ⟨row.f7 / 64, row.f7 % 64, rs2, rs1, rm, rd, row.opc⟩
  | .r2 => ⟨row.f7 / 64, row.f7 % 64, row.r2, rs1, rm, rd, row.opc⟩
  | .r3f => ⟨row.f7 / 64, row.f7 % 64, rs2, rs1, row.rm, rd, row.opc⟩
  | .r2f => ⟨row.f7 / 64, row.f7 % 64, row.r2, rs1, row.rm, rd, row.opc⟩

def encCsr (o : CsrArgs) : Raw :=
  encI 0x73 ((match o.op with | .rw => 1 | .rs => 2 | .rc => 3) + (if o.imm then 4 else 0)) o.rd o.src o.csr

def loadF3 : LoadOp → Nat
  | .lb => 0 | .lh => 1 | .lw => 2 | .ld => 3 | .lbu => 4 | .lhu => 5 | .lwu => 6 | .flw => 2
def storeF3 : StoreOp → Nat
  | .sb => 0 | .sh => 1 | .sw => 2 | .sd => 3 | .fsw => 2
def amoF5 : AmoOp → Nat
  | .add => 0 | .swap => 1 | .xor => 4 | .or => 8 | .and => 12 | .min => 16 | .max => 20 | .minu => 24 | .maxu => 28
def branchF3 : CtlOp → Nat
  | .beq => 0 | .bne => 1 | .blt => 4 | .bge => 5 | .bltu => 6 | .bgeu => 7 | .jal => 0 | .jalr => 0

def encA (f5 : Nat) (dw aq rl : Bool) (rd rs1 rs2 : Nat) : Raw :=
  ⟨f5 / 16, f5 % 16 * 4 + bitOf aq * 2 + bitOf rl, rs2, rs1, if dw then 3 else 2, rd, 0x2F⟩

/-- The fields of an instruction; a step without an encoding has none. -/
def encodeRaw : Instr → Option Raw
  | .madd o => some (encP 0 o) | .msub o => some (encP 1 o) | .mand o => some (encP 2 o) | .mor o => some (encP 3 o)
  | .mxor o => some (encP 4 o) | .msll o => some (encP 5 o) | .msrl o => some (encP 6 o) | .msra o => some (encP 7 o)
  | .mmin o => some (encP 8 o) | .mmax o => some (encP 9 o) | .mminu o => some (encP 10 o) | .mmaxu o => some (encP 11 o)
  | .mmov o => some (encP 12 o) | .mfadd o => some (encP 13 o) | .mfmul o => some (encP 14 o) | .mfmax o => some (encP 15 o)
  | .send o => some (encR 0x0B 2 0 o) | .sendv o => some (encR 0x0B 2 1 o) | .mvc o => some (encR 0x0B 2 4 o)
  | .qbind o => some (encR 0x0B 3 0 o) | .qfree o => some (encR 0x0B 3 1 o) | .qcount o => some (encR 0x0B 3 2 o)
  | .qpopv o => some (encR 0x0B 3 3 o)
  | .tstamp o => some (encR 0x0B 4 0 o) | .slotwait o => some (encR 0x0B 4 1 o) | .pwrhint o => some (encR 0x0B 4 2 o)
  | .lld o => some (encR 0x0B 5 0 o) | .lst o => some (encR 0x0B 5 1 o) | .lcrc o => some (encR 0x0B 5 2 o)
  | .ldec o => some (encR 0x0B 5 3 o) | .lcvt o => some (encR 0x0B 5 4 o) | .lcommit o => some (encR 0x0B 5 5 o)
  | .ldrop o => some (encR 0x0B 5 6 o) | .linfo o => some (encR 0x0B 5 7 o)
  | .spawn o => some (encR 0x2B 0 0 o) | .spawnt o => some (encR 0x2B 0 1 o) | .tend o => some (encR 0x2B 0 2 o)
  | .jdec o => some (encR 0x2B 0 3 o) | .taskinfo o => some (encR 0x2B 0 4 o)
  | .qwroot o => some (encR 0x2B 1 0 o) | .qwait o => some (encR 0x2B 1 1 o) | .qwheld o => some (encR 0x2B 1 2 o)
  | .qwret o => some (encR 0x2B 1 3 o) | .qwdone o => some (encR 0x2B 1 4 o)
  | .barrive o => some (encR 0x2B 2 0 o) | .bwait o => some (encR 0x2B 2 1 o) | .cwaitge o => some (encR 0x2B 2 2 o)
  | .ctest o => some (encR 0x2B 2 3 o)
  | .gjoin o => some (encR 0x2B 3 0 o) | .gleave o => some (encR 0x2B 3 1 o) | .grejoin o => some (encR 0x2B 3 2 o)
  | .gsync o => some (encR 0x2B 3 3 o) | .ginfo o => some (encR 0x2B 3 4 o)
  | .fencex s p q sc => some ⟨bitOf s, p * 4 + q / 4, q % 4 * 8 + sc, 0, 4, 0, 0x2B⟩
  | .lpset s len rs1 => some ⟨bitOf s, len / 32, len % 32, rs1, 5, 0, 0x2B⟩
  | .rep s count mask step => some ⟨bitOf s, count - 1, mask * 4 + step, 0, 6, 0, 0x2B⟩
  | .rng64 o => some (encR 0x2B 7 0 o) | .rngf o => some (encR 0x2B 7 1 o) | .rngv o => some (encR 0x2B 7 2 o)
  | .rngjump o => some (encR 0x2B 7 3 o) | .npenter o => some (encR 0x2B 7 4 o) | .npexit o => some (encR 0x2B 7 5 o)
  | .slice o => some (encR 0x2B 7 6 o) | .errinfo o => some (encR 0x2B 7 7 o)
  | .vadd o => some (encV 0 o) | .vsub o => some (encV 1 o) | .vmul o => some (encV 2 o) | .vfma o => some (encV 3 o)
  | .vmin o => some (encV 4 o) | .vmax o => some (encV 5 o) | .vbit o => some (encV 6 o) | .vshift o => some (encV 7 o)
  | .vcmp o => some (encV 8 o) | .vsel o => some (encV 9 o) | .vld o => some (encV 10 o) | .vst o => some (encV 11 o)
  | .vgath o => some (encV 12 o) | .vscat o => some (encV 13 o)
  | .vneg o => some (encU 14 0 o) | .vabs o => some (encU 14 1 o) | .vmov o => some (encU 14 2 o)
  | .vsplatx o => some (encU 14 3 o) | .vsplatf o => some (encU 14 4 o) | .vextx o => some (encU 14 5 o)
  | .vrcp o => some (encU 14 6 o) | .vrsqrt o => some (encU 14 7 o) | .vexp2 o => some (encU 14 8 o)
  | .vlog2 o => some (encU 14 9 o) | .vtanh o => some (encU 14 10 o) | .vsigm o => some (encU 14 11 o)
  | .vredsum o => some (encU 14 12 o) | .vredmax o => some (encU 14 13 o) | .vredmin o => some (encU 14 14 o)
  | .viota o => some (encU 14 15 o) | .vcvt sub o => some (encU 14 sub o) | .vcvtsr sub o => some (encU 14 sub o)
  | .vquery o => some (encU 14 30 o) | .vperm o => some (encU 14 31 o)
  | .pand o => some (encU 15 0 o) | .por o => some (encU 15 1 o) | .pxor o => some (encU 15 2 o)
  | .pnot o => some (encU 15 3 o) | .pcount o => some (encU 15 4 o) | .pfirst o => some (encU 15 5 o)
  | .pwhilelt o => some (encU 15 6 o)
  | .mmaE4e4 o => some (encM 0 o) | .mmaE4e5 o => some (encM 1 o) | .mmaE5e4 o => some (encM 2 o)
  | .mmaE5e5 o => some (encM 3 o) | .mmaE4f6 o => some (encM 4 o) | .mmaE4f4 o => some (encM 5 o)
  | .mmaF4f4 o => some (encM 6 o) | .mmaBf o => some (encM 7 o) | .mmaI8 o => some (encM 8 o)
  | .mconv o => some (encM 9 o)
  | .maccZero o | .maccSt o | .maccStp o | .maccLdp o | .maccRow o => some (encR 0x7B 2 1 o)
  | .cqpush o => some (encR 0x7B 3 1 o) | .cqtry o | .cqtryProbe o => some (encR 0x7B 4 1 o)
  | .cqctlFree o | .cqctlWait o => some (encR 0x7B 5 1 o) | .mprog o => some (encR 0x7B 6 1 o)
  | .load .flw rd rs1 imm => some (encI 0x07 2 rd rs1 (codeOf imm 2048))
  | .load op rd rs1 imm => some (encI 0x03 (loadF3 op) rd rs1 (codeOf imm 2048))
  | .store op rs1 rs2 imm =>
      let u := codeOf imm 2048
      some ⟨u / 2048, u / 32 % 64, rs2, rs1, storeF3 op, u % 32, if op = .fsw then 0x27 else 0x23⟩
  | .amo op dw aq rl rd rs1 rs2 => some (encA (amoF5 op) dw aq rl rd rs1 rs2)
  | .lr dw aq rl rd rs1 => some (encA 2 dw aq rl rd rs1 0)
  | .sc dw aq rl rd rs1 rs2 => some (encA 3 dw aq rl rd rs1 rs2)
  | .ecall => some ⟨0, 0, 0, 0, 0, 0, 0x73⟩
  | .ebreak => some ⟨0, 0, 1, 0, 0, 0, 0x73⟩
  | .wfi => some ⟨0, 8, 5, 0, 0, 0, 0x73⟩
  | .fence fm p q rd rs1 => some ⟨fm / 8, fm % 8 * 8 + p / 2, p % 2 * 16 + q, rs1, 0, rd, 0x0F⟩
  | .fenceTso rd rs1 => some ⟨1, 1, 19, rs1, 0, rd, 0x0F⟩
  | .fenceI rd rs1 imm => some (encI 0x0F 1 rd rs1 imm)
  | .csrAccess o | .errwordRead o | .qwdomainWrite o | .qbindCsrWrite o | .fxflagsAccess o => some (encCsr o)
  | .controlTransfer .jal rd _ _ imm =>
      let u := codeOf imm 1048576
      some ⟨u / 1048576, u / 32 % 64, u / 2 % 16 * 2 + u / 2048 % 2, u / 32768 % 32, u / 4096 % 8, rd, 0x6F⟩
  | .controlTransfer .jalr rd rs1 _ imm => some (encI 0x67 0 rd rs1 (codeOf imm 2048))
  | .controlTransfer op _ rs1 rs2 imm =>
      let u := codeOf imm 4096
      some ⟨u / 4096, u / 32 % 64, rs2, rs1, branchF3 op, u / 2 % 16 * 2 + u / 2048 % 2, 0x63⟩
  | .integerOp op rd rs1 rs2 imm => some (encInt op rd rs1 rs2 imm)
  | .fpOp op rm rd rs1 rs2 rs3 => some (encFp op rm rd rs1 rs2 rs3)
  | _ => none

/-- The word of an instruction; an illegal word is itself. -/
def encode : Instr → Option Nat
  | .illegalInstruction w => some w
  | i => (encodeRaw i).map wordOfRaw

/-- What the decoder reads from a word numbered as spec/opcode_table.json numbers it: one 32-bit word, bit 0 least
significant; the bits above `nbits` are zero. The word is laid out in its bytes and decoded from them. -/
def decodeTableWord (nbits w : Nat) : Option Instr :=
  let v := w % 2 ^ nbits % 4294967296
  match decodeBytes [BitVec.ofNat 8 v, BitVec.ofNat 8 (v / 256), BitVec.ofNat 8 (v / 65536), BitVec.ofNat 8 (v / 16777216)] with
  | .ok i => some i
  | .reject _ => none

end Sys2Proof
end

