-- ==== Sys2Proof/Machine/Operands.lean ====
section
/-!
DEFINITION. Operand forms: the integer computations of the base subset, which registers an instruction names, the classes of
instructions a thread may execute, and the resolution of a data address (01 R4, 02 R40, 12 R262 to R271).
-/
namespace Sys2Proof.Machine

/-! Integer computations (02 R40). PRESUMED from the RISC-V specifications that R40 names. -/

def sext (w : Nat) (v : Nat) : Word64 := BitVec.signExtend 64 (BitVec.ofNat w v)
def w32 (v : Word64) : Word32 := v.setWidth 32
def sx32 (v : Word32) : Word64 := v.signExtend 64
def ofBool (b : Bool) : Word64 := if b then 1 else 0
def immW (i : Int) : Word64 := BitVec.ofInt 64 i

def divS {n : Nat} (a b : BitVec n) : BitVec n := if b = 0 then BitVec.allOnes n else a.sdiv b
def divU {n : Nat} (a b : BitVec n) : BitVec n := if b = 0 then BitVec.allOnes n else a.udiv b
def remS {n : Nat} (a b : BitVec n) : BitVec n := if b = 0 then a else a.srem b
def remU {n : Nat} (a b : BitVec n) : BitVec n := if b = 0 then a else a.umod b

/-- Leading zeros of the low `n` bits. -/
def clzN : Nat → Nat → Nat
  | 0, _ => 0
  | n + 1, v => if v / 2 ^ n % 2 = 1 then 0 else 1 + clzN n v
def ctzN : Nat → Nat → Nat
  | 0, _ => 0
  | n + 1, v => if v % 2 = 1 then 0 else 1 + ctzN n (v / 2)
def popN : Nat → Nat → Nat
  | 0, _ => 0
  | n + 1, v => v % 2 + popN n (v / 2)

/-- Bytes of a word through a function. -/
def mapBytes (f : Nat → Nat) (v : Nat) : Nat :=
  (List.range 8).foldl (fun acc i => acc + f (v / 256 ^ i % 256) * 256 ^ i) 0
def revBytes (v : Nat) : Nat := (List.range 8).foldl (fun acc i => acc * 256 + v / 256 ^ i % 256) 0

/-- The result of an integer instruction on its sources, its immediate and its pc. -/
def intResult (op : IntOp) (a b : Word64) (imm : Int) (pc : Word64) : Word64 :=
  let i := immW imm
  let sh := imm.toNat
  let bs := b.toNat % 64
  let bw := b.toNat % 32
  match op with
  | .lui => BitVec.ofInt 64 (imm * 4096)
  | .auipc => pc + BitVec.ofInt 64 (imm * 4096)
  | .addi => a + i
  | .slti => ofBool (a.slt i)
  | .sltiu => ofBool (a.ult i)
  | .xori => a ^^^ i
  | .ori => a ||| i
  | .andi => a &&& i
  | .slli => a <<< sh
  | .srli => a >>> sh
  | .srai => a.sshiftRight sh
  | .addiw => sx32 (w32 (a + i))
  | .slliw => sx32 (w32 a <<< sh)
  | .srliw => sx32 (w32 a >>> sh)
  | .sraiw => sx32 ((w32 a).sshiftRight sh)
  | .add => a + b
  | .sub => a - b
  | .sll => a <<< bs
  | .slt => ofBool (a.slt b)
  | .sltu => ofBool (a.ult b)
  | .xor => a ^^^ b
  | .srl => a >>> bs
  | .sra => a.sshiftRight bs
  | .or => a ||| b
  | .and => a &&& b
  | .addw => sx32 (w32 a + w32 b)
  | .subw => sx32 (w32 a - w32 b)
  | .sllw => sx32 (w32 a <<< bw)
  | .srlw => sx32 (w32 a >>> bw)
  | .sraw => sx32 ((w32 a).sshiftRight bw)
  | .mul => a * b
  | .mulh => BitVec.ofInt 64 (a.toInt * b.toInt / 18446744073709551616)
  | .mulhsu => BitVec.ofInt 64 (a.toInt * (b.toNat : Int) / 18446744073709551616)
  | .mulhu => BitVec.ofNat 64 (a.toNat * b.toNat / 18446744073709551616)
  | .div => divS a b
  | .divu => divU a b
  | .rem => remS a b
  | .remu => remU a b
  | .mulw => sx32 (w32 a * w32 b)
  | .divw => sx32 (divS (w32 a) (w32 b))
  | .divuw => sx32 (divU (w32 a) (w32 b))
  | .remw => sx32 (remS (w32 a) (w32 b))
  | .remuw => sx32 (remU (w32 a) (w32 b))
  | .adduw => (w32 a).setWidth 64 + b
  | .sh1add => (a <<< 1) + b
  | .sh2add => (a <<< 2) + b
  | .sh3add => (a <<< 3) + b
  | .sh1adduw => ((w32 a).setWidth 64 <<< 1) + b
  | .sh2adduw => ((w32 a).setWidth 64 <<< 2) + b
  | .sh3adduw => ((w32 a).setWidth 64 <<< 3) + b
  | .slliuw => (w32 a).setWidth 64 <<< sh
  | .andn => a &&& ~~~b
  | .orn => a ||| ~~~b
  | .xnor => ~~~(a ^^^ b)
  | .clz => BitVec.ofNat 64 (clzN 64 a.toNat)
  | .ctz => BitVec.ofNat 64 (ctzN 64 a.toNat)
  | .cpop => BitVec.ofNat 64 (popN 64 a.toNat)
  | .clzw => BitVec.ofNat 64 (clzN 32 (a.toNat % 4294967296))
  | .ctzw => BitVec.ofNat 64 (ctzN 32 (a.toNat % 4294967296))
  | .cpopw => BitVec.ofNat 64 (popN 32 (a.toNat % 4294967296))
  | .max => if a.slt b then b else a
  | .maxu => if a.ult b then b else a
  | .min => if b.slt a then b else a
  | .minu => if b.ult a then b else a
  | .sextb => sext 8 a.toNat
  | .sexth => sext 16 a.toNat
  | .zexth => BitVec.ofNat 64 (a.toNat % 65536)
  | .rol => a.rotateLeft bs
  | .ror => a.rotateRight bs
  | .rori => a.rotateRight sh
  | .rolw => sx32 ((w32 a).rotateLeft bw)
  | .rorw => sx32 ((w32 a).rotateRight bw)
  | .roriw => sx32 ((w32 a).rotateRight sh)
  | .orcb => BitVec.ofNat 64 (mapBytes (fun x => if x = 0 then 0 else 255) a.toNat)
  | .rev8 => BitVec.ofNat 64 (revBytes a.toNat)

/-! Registers an instruction names (01 R22): those it reads and those it writes. -/

inductive RegRef where
  | x (n : Nat)
  | f (n : Nat)
  | v (n : Nat)
  deriving DecidableEq, Repr

/-- Key of a register in `Run.seen`. -/
def RegRef.key : RegRef → Nat
  | .x n => n
  | .f n => 32 + n
  | .v n => 64 + n

/-- An instruction that names registers issues: what they hold from reads is known from here on. -/
def Run.dependOn (r : Run) (l : List RegRef) : Run :=
  l.foldl (fun r x => match r.seen.find x.key with
    | some n => { r with acq := max r.acq n, seen := r.seen.del x.key }
    | none => r) r

def cpRegs (o : CP) : List RegRef :=
  (if o.kd then [] else [.x o.d]) ++ (if o.k1 then [] else [.x o.a]) ++ (if o.k2 then [] else [.x o.b])

def regsUsed (i : Instr) : List RegRef :=
  match i with
  | .madd o | .msub o | .mand o | .mor o | .mxor o | .msll o | .msrl o | .msra o | .mmin o | .mmax o | .mminu o
  | .mmaxu o | .mmov o | .mfadd o | .mfmul o | .mfmax o => cpRegs o
  | .send o => [.x o.rs1, .x o.rs2]
  | .sendv o => [.x o.rs1, .v o.rs2]
  | .mvc o => [.x o.rd, .x o.rs1]
  | .qbind o => [.x o.rs1, .x o.rs2]
  | .qcount o => [.x o.rd]
  | .qpopv o => [.v o.rd]
  | .tstamp o | .qwroot o | .qwheld o | .ginfo o | .rng64 o | .slice o | .errinfo o | .cqtryProbe o | .cqctlFree o
  | .mprog o | .linfo o | .taskinfo o => [.x o.rd]
  | .rngf o => [.f o.rd]
  | .rngv o => [.v o.rd]
  | .slotwait o | .pwrhint o | .ldrop o | .spawn o | .jdec o | .qwdone o | .rngjump o => [.x o.rs1]
  | .lld o | .ldec o | .qwait o | .barrive o | .gjoin o => [.x o.rd, .x o.rs1]
  | .lst o | .spawnt o | .bwait o | .cwaitge o => [.x o.rs1, .x o.rs2]
  | .lcrc o | .lcvt o | .ctest o => [.x o.rd, .x o.rs1, .x o.rs2]
  | .lpset _ _ rs1 => [.x rs1]
  | .vadd o | .vsub o | .vmul o | .vfma o | .vmin o | .vmax o | .vbit o | .vshift o | .vsel o => [.v o.f1, .v o.f2, .v o.fd]
  | .vcmp o => [.v o.f1, .v o.f2]
  | .vld o | .vst o => [.x o.f1, .x o.f2, .v o.fd]
  | .vgath o | .vscat o =>
      [.x o.f1, .v o.fd] ++ (List.range (offsetRegs o.et + 1)).map (fun k => .v (o.f2 + k))
  | .vneg o | .vabs o | .vmov o | .vrcp o | .vrsqrt o | .vexp2 o | .vlog2 o | .vtanh o | .vsigm o | .vredsum o
  | .vredmax o | .vredmin o | .vperm o => [.v o.f1, .v o.fd]
  | .vcvt _ o | .vcvtsr _ o => [.v o.f1, .v o.fd]
  | .viota o => [.v o.fd]
  | .vsplatx o => [.x o.f1, .v o.fd]
  | .vsplatf o => [.f o.f1, .v o.fd]
  | .vextx o => [.x o.f1, .v o.f1, .x o.fd]
  | .vquery o | .pcount o => [.x o.fd]
  | .pwhilelt o => [.x o.f1, .x (o.f1 + 1)]
  | .mmaE4e4 o | .mmaE4e5 o | .mmaE5e4 o | .mmaE5e5 o | .mmaE4f6 o | .mmaE4f4 o | .mmaF4f4 o | .mconv o =>
      [.x o.rs1, .x o.rs2, .v o.fs, .f o.fs]
  | .mmaBf o | .mmaI8 o => [.x o.rs1, .x o.rs2]
  | .maccSt o | .maccStp o | .maccLdp o => [.x o.rs1]
  | .maccRow o => [.v o.rd, .x o.rs1]
  | .cqpush o => (List.range 4).map (fun k => .x (o.rs1 + k))
  | .cqtry o => .x o.rd :: (List.range 4).map (fun k => .x (o.rs1 + k))
  | .load op rd rs1 _ => [if op = .flw then .f rd else .x rd, .x rs1]
  | .store op rs1 rs2 _ => [.x rs1, if op = .fsw then .f rs2 else .x rs2]
  | .amo _ _ _ _ rd rs1 rs2 | .sc _ _ _ rd rs1 rs2 => [.x rd, .x rs1, .x rs2]
  | .lr _ _ _ rd rs1 => [.x rd, .x rs1]
  | .ecall => (List.range 8).map (fun k => .x (10 + k))
  | .csrAccess o | .errwordRead o | .qwdomainWrite o | .qbindCsrWrite o | .fxflagsAccess o =>
      .x o.rd :: (if o.imm then [] else [.x o.src])
  | .controlTransfer _ rd rs1 rs2 _ => [.x rd, .x rs1, .x rs2]
  | .integerOp _ rd rs1 rs2 _ => [.x rd, .x rs1, .x rs2]
  | .fpOp op _ rd rs1 rs2 rs3 =>
      (match op with
        | .fcvtws | .fcvtwus | .fcvtls | .fcvtlus | .fmvxw | .fclass => [.x rd, .f rs1]
        | .feq | .flt | .fle => [.x rd, .f rs1, .f rs2]
        | .fcvtsw | .fcvtswu | .fcvtsl | .fcvtslu | .fmvwx => [.f rd, .x rs1]
        | .fsqrt => [.f rd, .f rs1]
        | .fmadd | .fmsub | .fnmsub | .fnmadd => [.f rd, .f rs1, .f rs2, .f rs3]
        | _ => [.f rd, .f rs1, .f rs2])
  | _ => []

/-- Does an outstanding access write the register? -/
def OutDst.hits (d : OutDst) (r : RegRef) : Bool :=
  match d, r with
  | .x rd _ _, .x n => rd == n && rd != 0
  | .test rd _, .x n => rd == n && rd != 0
  | .f rd, .f n => rd == n
  | .v vd _, .v n => vd == n
  | _, _ => false

/-- 01 R22: the instruction names a register that an outstanding access has yet to write. -/
def Thread.interlocked (t : Thread) (i : Instr) : Bool := t.run.outs.any (fun o => (regsUsed i).any o.dst.hits)

/-! Classes (01 R4, R5) -/

/-- The encoded instructions that t1 traps as illegal. -/
def t0Only (i : Instr) : Bool :=
  match i with
  | .sendv _ | .qbind _ | .qfree _ | .qcount _ | .qpopv _ | .rngv _
  | .gjoin _ | .gleave _ | .grejoin _ | .gsync _ | .ginfo _
  | .vadd _ | .vsub _ | .vmul _ | .vfma _ | .vmin _ | .vmax _ | .vbit _ | .vshift _ | .vcmp _ | .vsel _ | .vld _ | .vst _
  | .vgath _ | .vscat _ | .vneg _ | .vabs _ | .vmov _ | .vsplatx _ | .vsplatf _ | .vextx _ | .vrcp _ | .vrsqrt _ | .vexp2 _
  | .vlog2 _ | .vtanh _ | .vsigm _ | .vredsum _ | .vredmax _ | .vredmin _ | .viota _ | .vcvt _ _ | .vcvtsr _ _ | .vquery _
  | .vperm _ | .pand _ | .por _ | .pxor _ | .pnot _ | .pcount _ | .pfirst _ | .pwhilelt _
  | .mmaE4e4 _ | .mmaE4e5 _ | .mmaE5e4 _ | .mmaE5e5 _ | .mmaE4f6 _ | .mmaE4f4 _ | .mmaF4f4 _ | .mmaBf _ | .mmaI8 _ | .mconv _
  | .maccZero _ | .maccSt _ | .maccStp _ | .maccLdp _ | .maccRow _ | .mprog _ => true
  | .madd o | .msub o | .mand o | .mor o | .mxor o | .msll o | .msrl o | .msra o | .mmin o | .mmax o | .mminu o
  | .mmaxu o | .mmov o | .mfadd o | .mfmul o | .mfmax o =>
      (o.k1 && decide (8 ≤ o.a)) || (o.k2 && decide (8 ≤ o.b))
  | _ => false

/-- The landing instructions (15 R326). -/
def isLanding (i : Instr) : Bool :=
  match i with
  | .lld _ | .lst _ | .lcrc _ | .ldec _ | .lcvt _ | .lcommit _ | .ldrop _ | .linfo _ => true
  | _ => false

/-- What t2 may execute besides: RV64I, M, Zba, Zbb and Zicsr (01 R4); `fence` serves there (13 R288). -/
def t2Base (i : Instr) : Bool :=
  match i with
  | .integerOp _ _ _ _ _ | .controlTransfer _ _ _ _ _ | .csrAccess _ | .errwordRead _ | .qwdomainWrite _ | .qbindCsrWrite _
  | .fxflagsAccess _ | .fence _ _ _ _ _ | .fenceTso _ _ | .ebreak => true
  | .load op _ _ _ => op != .flw
  | .store op _ _ _ => op != .fsw
  | _ => false

/-- May a thread execute the instruction (01 R4)? -/
def classAllows (h : Nat) (i : Instr) : Bool :=
  match h with
  | 0 => !isLanding i
  | 1 => !isLanding i && !t0Only i
  | _ => isLanding i || t2Base i

/-! Data addresses (12 R262 to R271) -/

/-- The path of an address. -/
def pathOf (a : Nat) : Nat := a / 288230376151711744 % 64
def addrName (a : Nat) : Nat := a / 16777216 % 17179869184
def addrWin (a : Nat) : Nat := a / 1048576 % 16
def addrOff (a : Nat) : Nat := a % 1048576

/-- The kinds of access a window distinguishes (12 R265). -/
inductive WinKind where
  | load | store | atomic | vload | vstore
  /-- LR, and a read of a barrier word or of a counter -/
  | probe
  deriving DecidableEq, Repr

def WinKind.isWrite (k : WinKind) : Bool := match k with | .store | .atomic | .vstore => true | _ => false

/-- Where the valid offsets of a register window end (12 R265). -/
def winEnd (win : Nat) : Nat :=
  match win with
  | 4 => 0x800
  | 5 => 0x2000
  | 6 => 0x40
  | _ => 0x100

/-- Does a window of path 0x01 take the access (12 R265, R266; 05 R122 for vectors)? -/
def windowTakes (own : Bool) (thread win off size : Nat) (k : WinKind) : Bool :=
  let vec := k == .vload || k == .vstore
  let dword (limit : Nat) : Bool :=
    decide (size = 8) && decide (off % 8 = 0) && decide (off < limit) && k != .atomic && !vec
  let foreign (owner : Nat) : Bool := !(own && thread == owner)
  match win with
  | 0 => decide (off + size ≤ 131072)
  | 1 => dword (winEnd 1) && foreign 0
  | 2 => dword (winEnd 2) && foreign 1
  | 3 => dword (winEnd 3) && foreign 0
  | 4 => dword (winEnd 4) && foreign 0
  | 5 => dword (winEnd 5) && foreign 0
  | 6 => dword (winEnd 6) && foreign 0
  | 7 => dword 0x60 && k == .store
  | _ => false

/-- The access fault of a kind of access: load 0x05, store or AMO 0x07; LR counts as a read (12 R263). -/
def accFault (k : WinKind) : Nat := if k.isWrite then 0x07 else 0x05
def alignFault (k : WinKind) : Nat := if k.isWrite then 0x06 else 0x04

/-- The checks of 12 R263 at issue: the trap's cause, or none. -/
def checkAccess (s : State) (g h a size : Nat) (k : WinKind) : Option Nat :=
  let own := addrName a == s.nameOf g
  let place : Bool :=
    match pathOf a with
    | 0x00 => a / 72057594037927936 % 4 == 0
    | 0x01 => windowTakes own h (addrWin a) (addrOff a) size k
    | 0x02 => a / 72057594037927936 % 4 == 0 && !k.isWrite
    | _ => false
  -- windows 1 to 7 at an offset that is no multiple of 8 are misaligned first (12, example; assumption 13)
  if pathOf a = 0x01 ∧ 1 ≤ addrWin a ∧ size = 8 ∧ a % 8 ≠ 0 ∧ windowTakes own h (addrWin a) (addrOff a / 8 * 8) 8 k then some (alignFault k)
  else if !place then some (accFault k)
  else if a % size ≠ 0 then some (alignFault k)
  else none

/-- Where a translated or direct address lives: home, home-local address. -/
structure Place where
  home : Nat
  addr : Nat
  dst : Nat
  deriving DecidableEq, Repr

/-- Classes of physical addresses (12 R270). -/
def placeOfPa (s : State) (wafer pa : Nat) : Option Place :=
  if pa / 8796093022208 = 0 then
    let p := pa / 68719476736 % 128
    some ⟨edgeHome wafer p, pa % 68719476736, s.homeName (edgeHome wafer p)⟩
  else if pa / 17592186044416 = 1 ∧ pa / 274877906944 % 64 = 0 ∧ pa / 4294967296 % 64 ≤ 47 then
    let i := wafer * 48 + pa / 4294967296 % 64
    some ⟨islandHome i, pa % 4294967296, s.homeName (islandHome i)⟩
  else none

def placeOfTileAddr (a : Nat) : Place := ⟨nameTile (addrName a), addrWin a * 1048576 + addrOff a, addrName a⟩

end Sys2Proof.Machine
end

