-- ==== Sys2Proof/Machine/Xlat.lean ====
section
/-!
DEFINITION. Translation (12 R273 to R279): the tile's translation entries, the Sv57 walk, and invalidation.
-/
namespace Sys2Proof.Machine

/-- Sub-causes of a translation miss (16 R348). -/
def missNoMap : Nat := 1
def missPerm : Nat := 2
def missAd : Nat := 3
def missResv : Nat := 4
def missWinKind : Nat := 5

/-- Does an entry translate an address of a region (12 R276)? -/
def XlEntry.covers (e : XlEntry) (region asid va : Nat) : Bool :=
  e.region == region && e.asid == asid && va / 4096 / 512 ^ e.level == e.vpn / 512 ^ e.level

def XlEntry.pa (e : XlEntry) (va : Nat) : Nat :=
  let size := 4096 * 512 ^ e.level
  e.ppn * 4096 / size * size + va % size

/-- The right a kind of access needs (12 R274). -/
def AccKind.isWrite (k : AccKind) : Bool := k == .write || k == .amo

inductive WalkRes where
  | entry (e : XlEntry)
  | miss (sub : Nat)
  /-- a table entry lies in a claimed line (13 R291) -/
  | busy
  deriving DecidableEq, Repr

/-- The walk from level `n − 1` down, in the order of checks of 12 R274; `tbl` is the table's physical page. -/
def walkFrom (s : State) (wafer region asid va : Nat) (k : AccKind) : Nat → Nat → WalkRes
  | 0, _ => .miss missNoMap
  | n + 1, tbl =>
    let at_ := tbl * 4096 + va / (4096 * 512 ^ n) % 512 * 8
    let pte := bytesNat (edgeRead s wafer at_ 8)
    let fl (i : Nat) : Bool := pte / 2 ^ i % 2 == 1
    let ppn := pte / 1024 % 17592186044416
    let leaf := fl 1 || fl 3
    if edgeClaimed s wafer at_ 8 then .busy
    else if !fl 0 then .miss missNoMap
    else if pte / 18014398509481984 ≠ 0 ∨ (fl 2 ∧ !fl 1) ∨ (!leaf ∧ (fl 7 ∨ fl 6 ∨ fl 4)) then .miss missResv
    else if (leaf ∧ n = 4) ∨ (!leaf ∧ n = 0) then .miss missNoMap
    else if !leaf then
      if ppn * 4096 / 8796093022208 ≠ 0 then .miss missNoMap else walkFrom s wafer region asid va k n ppn
    else if ppn % 512 ^ n ≠ 0 then .miss missResv
    else if !fl 4 ∨ !fl 1 ∨ (k.isWrite ∧ !fl 2) then .miss missPerm
    else if !fl 6 ∨ (k.isWrite ∧ !fl 7) then .miss missAd
    else .entry ⟨region, asid, va / 4096, n, ppn, fl 1, fl 2 && fl 7⟩

/-- The whole walk for an address of a tile's region. -/
def walkFor (s : State) (g va : Nat) (k : AccKind) : WalkRes :=
  let r := s.regionOf g
  let q := s.region r
  if q.xlatMode ≠ 10 then .miss missNoMap
  else if q.ppn * 4096 / 8796093022208 ≠ 0 then .miss missNoMap
  else walkFrom s (waferOf g) r q.asid (va % 144115188075855872) k 5 q.ppn

/-- What an address on path 0x00 or 0x02 comes to. -/
inductive XlRes where
  | place (p : Place)
  | walk
  | miss (sub : Nat)
  deriving DecidableEq, Repr

/-- The last check of 12 R274: the class of the physical address, and what an island user window takes (R271, R272). -/
def placeCheck (s : State) (g a pa size : Nat) (k : AccKind) : XlRes :=
  match placeOfPa s (waferOf g) pa with
  | none => .miss missNoMap
  | some p =>
    if isTileHome p.home ∨ isEdgeHome p.home then .place p
    else if pathOf a = 0 ∧ size = 8 ∧ (k = .read ∨ k = .write) then .place p
    else .miss missWinKind

/-- A lookup among the entries made for this instruction and the tile's cache (12 R276). -/
def translate (s : State) (g : Nat) (own : List XlEntry) (a size : Nat) (k : AccKind) : XlRes :=
  let r := s.regionOf g
  let q := s.region r
  let va := a % 144115188075855872
  if q.xlatMode ≠ 10 then .miss missNoMap
  else match (own ++ (s.tile g).e.xlat).find? (fun e => e.covers r q.asid va && (!k.isWrite || e.w)) with
    | some e => placeCheck s g a (e.pa va) size k
    | none => .walk

/-- A filled entry replaces an older one of the same page; the cache holds 16 (12 R276). -/
def fillXlat (l : List XlEntry) (e : XlEntry) : List XlEntry :=
  let l := l.filter (fun x => !(x.region == e.region && x.asid == e.asid && x.vpn == e.vpn && x.level == e.level))
  if 16 ≤ l.length then l.drop 1 ++ [e] else l ++ [e]

/-- A tile drops its `n`-th translation entry (12 R276). -/
def State.dropXlat (s : State) (g n : Nat) : State := s.modTile g (fun t => t.modEng (fun e => { e with xlat := e.xlat.eraseIdx n }))

/-- Asks the island translation unit for a walk. -/
def State.askWalk (s : State) (g : Nat) (w : Walk) : State :=
  s.modTile g (fun t => t.modEng (fun e => if e.walks.contains w then e else { e with walks := e.walks ++ [w] }))

/-- Does an invalidation cover an entry (12 R277, R278)? -/
def invCovers (scope asid va pages : Nat) (e : XlEntry) : Bool :=
  let inRange := decide (e.vpn / 512 ^ e.level * 512 ^ e.level < va / 4096 + pages)
    && decide (va / 4096 < (e.vpn / 512 ^ e.level + 1) * 512 ^ e.level) && decide (0 < pages)
  match scope with
  | 0 => e.asid == asid && inRange
  | 1 => e.asid == asid
  | 2 => inRange
  | _ => true

end Sys2Proof.Machine
end

