-- ==== Sys2Proof/Machine/Mem.lean ====
section
/-!
DEFINITION. Memory accesses: what a home does with a request (12 R262 to R268, 13 R281, 14 R295 to R303), and how a thread issues one.

A request to the thread's own tile is performed at once when nothing waits at that home before it and no claim covers it; every
other request travels as a message and is answered by a response, which the step MEMORY_RESPONSE applies.
-/
namespace Sys2Proof.Machine

/-! Register windows (12 R265 to R267, 06 R145) -/

def readWindow (s : State) (g win off : Nat) : Nat :=
  let t := s.tile g
  match win with
  | 1 => ((t.thread 0).r.getX (off / 8)).toNat
  | 2 => ((t.thread 1).r.getX (off / 8)).toNat
  | 3 => ((t.thread 0).r.getF (off / 8)).toNat
  | 4 => (t.r.getV (off / 64)).toNat / 256 ^ (off % 64) % 18446744073709551616
  | 5 => let p := t.r.getAcc (off / 2048) (off % 2048 / 128) (off % 128 / 8)
         p.1.toNat + p.2.toNat * 4294967296
  | 6 => (t.r.getP (off / 8)).toNat
  | _ => 0

/-- Bytes [o, o + 8) of a vector register replaced. -/
def vPut8 (v : VWord) (o : Nat) (d : Nat) : VWord :=
  let old := v.toNat
  BitVec.ofNat 512 (old - old / 256 ^ o % 18446744073709551616 * 256 ^ o + d % 18446744073709551616 * 256 ^ o)

def writeWindow (s : State) (g win off d : Nat) : State :=
  let w := BitVec.ofNat 64 d
  match win with
  | 1 => s.modThread g 0 (·.putX (off / 8) w)
  | 2 => s.modThread g 1 (·.putX (off / 8) w)
  | 3 => s.modThread g 0 (·.putF (off / 8) (BitVec.ofNat 32 d))
  | 4 => s.modTile g (fun t => t.putV (off / 64) (vPut8 (t.r.getV (off / 64)) (off % 64) d))
  | 5 => s.modTile g (fun t => t.modRegs (·.setAcc (off / 2048) (off % 2048 / 128) (off % 128 / 8)
            (BitVec.ofNat 32 d, BitVec.ofNat 32 (d / 4294967296))))
  | 6 => s.modTile g (fun t => t.modRegs (·.setP (off / 8) w))
  | _ => s

/-- A stream word enters the store (07 R178, 12 R268); a full store takes none. -/
def pushStream (e : Engines) (w : StreamWord) : Engines :=
  if e.store.length < 256 then { e with store := e.store ++ [w] } else e

/-- Does a word match a binding (07 R178)? -/
def QBind.matches (b : QBind) (w : StreamWord) : Bool := w.vc == b.vc && (b.src == 0 || w.src == b.src)

/-- Can two bindings compete (07 R179)? -/
def QBind.competes (a b : QBind) : Bool := a.vc == b.vc && (a.src == b.src || a.src == 0 || b.src == 0)

/-- The oldest matching word, and the store without it. -/
def takeWord (b : QBind) : List StreamWord → Option (StreamWord × List StreamWord)
  | [] => none
  | w :: r => if b.matches w then some (w, r) else match takeWord b r with
    | some (x, r') => some (x, w :: r')
    | none => none

/-- A pending `qpopv` consumes up to `n` words of the store (07 R179). -/
def Pend.take (p : Pend) (b : QBind) : Nat → List StreamWord → Pend × List StreamWord
  | 0, st => (p, st)
  | n + 1, st =>
    if 8 ≤ p.consumed then ({ p with need := .done }, st)
    else match takeWord b st with
      | none => (p, st)
      | some (w, st') =>
        let p' : Pend := { p with value := p.value + w.word.toNat * 2 ^ (64 * p.consumed), consumed := p.consumed + 1 }
        Pend.take (if p'.consumed = 8 then { p' with need := .done } else p') b n st'

/-- Bindings of the pending `qpopv` that still lack words. -/
def openBinds (l : List Pend) : List QBind := l.filterMap (fun p => match p.need with | .words b => some b | _ => none)

/-- The pending `qpopv` of t0 consume what has arrived, in program order, each behind those it can compete with. -/
def Tile.feed (t : Tile) : Tile :=
  let r := (t.thread 0).run.pend.foldl (fun (a : List Pend × List StreamWord) p =>
    match p.need with
    | .words b =>
      if (openBinds a.1).any (·.competes b) then (a.1 ++ [p], a.2)
      else let (p', st) := p.take b 8 a.2; (a.1 ++ [p'], st)
    | _ => (a.1 ++ [p], a.2)) (([] : List Pend), t.e.store)
  if (t.thread 0).run.pend.isEmpty then t
  else
    let seen := (t.e.store.filter (fun w => !r.2.contains w)).foldl (fun n w => max n w.sent) 0
    (t.modEng (fun e => { e with store := r.2 })).modThread 0 (fun th => th.modRun (fun q =>
      { q with pend := r.1.filter (fun p => !p.over), acq := max q.acq seen }))

/-! Island user windows: NVMe doorbells (20 R418). Queue q's submission tail doorbell is page offset 16 · q of the page at
0x1000, its completion head doorbell 16 · q + 8. Other offsets hold nothing. -/

def doorbellRead (s : State) (i off : Nat) : Nat :=
  if off / 4096 = 1 then
    let q := (s.island i).nvme.look (off % 4096 / 16) {}
    if off % 16 = 0 then q.sqTail else if off % 16 = 8 then q.cqHead else 0
  else 0

/-- An index at or beyond the queue's entries is ignored and reported. -/
def doorbellWrite (s : State) (i off d : Nat) : State :=
  if off / 4096 ≠ 1 then s
  else
    let n := off % 4096 / 16
    if !((s.island i).nvme.look n {}).opened then s
    else if ((s.island i).nvme.look n {}).size ≤ d % 65536 then s.notice i 0x77 n
    else s.modIsland i (fun k => { k with nvme := k.nvme.modify n {} (fun q =>
      if off % 16 = 0 then { q with sqTail := d % 65536 } else if off % 16 = 8 then { q with cqHead := d % 65536 } else q) })

/-! What a home does -/

/-- A value of `n` bytes as a signed integer. -/
def signedN (n v : Nat) : Int := if v < 256 ^ n / 2 then (v : Int) else (v : Int) - (256 ^ n : Nat)

/-- The new contents of an AMO's operand (14 R296). -/
def amoResult (op : AmoOp) (n old d : Nat) : Nat :=
  let m := 256 ^ n
  match op with
  | .swap => d % m
  | .add => (old + d) % m
  | .xor => old ^^^ (d % m)
  | .and => old &&& (d % m)
  | .or => old ||| (d % m)
  | .min => if signedN n (d % m) < signedN n old then d % m else old
  | .max => if signedN n old < signedN n (d % m) then d % m else old
  | .minu => if d % m < old then d % m else old
  | .maxu => if old < d % m then d % m else old

/-- A barrier word after an arrival, and the result (14 R300). -/
def barriveResult (w : Nat) : Nat × Nat :=
  let p := w / 281474976710656
  let ex := w / 4294967296 % 65536
  let n := w % 4294967296 + 1
  if max ex 1 ≤ n then ((p + 1) % 65536 * 281474976710656 + ex * 4294967296, 65536 + p)
  else (w / 4294967296 * 4294967296 + n, p)

/-- Is a byte of [a, a + n) of a tile's scratchpad in a poisoned granule (16 R351)? -/
def poisonedAt (s : State) (h a n : Nat) : Bool :=
  isTileHome h && decide (a < 131072) && (s.tile h).c.poison.any (fun p => p.2 && decide (a / 8 ≤ p.1) && decide (p.1 ≤ (a + n - 1) / 8))

/-- Reads `n` bytes at a home-local address. -/
def readHome (s : State) (h a n : Nat) : Nat :=
  if isTileHome h then (if a < 1048576 then s.loadAt h a n else readWindow s h (a / 1048576) (a % 1048576))
  else if isEdgeHome h then s.loadAt h a n
  else doorbellRead s (h - 134217728) a

/-- Writes `n` bytes at a home-local address for thread `wh` of tile `wg` named `src`. -/
def writeHome (s : State) (h a n d wg wh src : Nat) : State :=
  if isTileHome h then
    if a < 1048576 then s.storeAt h a (natBytes n d) wg wh
    else if a / 1048576 = 7 then
      s.modTile h (fun t => (t.modEng (fun e => pushStream e ⟨BitVec.ofNat 64 d, a % 1048576 / 8, src, s.perf⟩)).feed)
    else { writeWindow s h (a / 1048576) (a % 1048576) d with perf := s.perf + 1 }
  else if isEdgeHome h then s.storeAt h a (natBytes n d) wg wh
  else doorbellWrite s (h - 134217728) a d

/-- What an o read of a granule by thread `h` of tile `g` returns: its present content, or an earlier one that neither the thread's last
refresh point nor an earlier o read of it rules out (13 R289). `h` is 3 for an engine, which has no refresh point. -/
def oRead (s : State) (g h hm addr n : Nat) : State × Nat :=
  let key := homeKey hm (addr / 8 * 8)
  let r := (s.thread g h).run
  let floor := max (max r.oacq (r.oports.look hm 0)) (r.oseen.look key 0)
  match (s.olds.look key []).filter (fun x => decide (floor ≤ x.2)) with
  | [] => (s, s.loadAt hm addr n)
  | l =>
    let now := (s.mem.readNat key 8, s.perf)
    let (v, at_) := (now :: l).getD (s.free % (l.length + 1)) now
    let s := if h < 3 then s.modThread g h (fun t => t.modRun (fun q => { q with oseen := q.oseen.put key at_ })) else s
    (s.used, v / 256 ^ (addr % 8) % 256 ^ n)

/-- Registers a reservation; a 65th removes the oldest (04 R78). A second LR of a thread removes the thread's earlier reservation at the home
(DESIGN CHOICE, assumption 96). -/
def addResv (l : List Reservation) (r : Reservation) : List Reservation :=
  let l := l.filter (fun x => !(x.srcHome == r.srcHome && x.thread == r.thread))
  if 64 ≤ l.length then l.drop 1 ++ [r] else l ++ [r]

/-- Registers a watch when the home has room (14 R303). -/
def addWatch (h : Nat) (l : List Watch) (w : Watch) : List Watch :=
  if l.length < (if isTileHome h then 64 else 4096) then l ++ [w] else l

/-- What a home does with a request of a thread, and the value it answers. Joins, claims and increments have steps of their own. -/
def doReq (s : State) (h : Nat) (m : Msg) (q : MemReq) : State × Nat :=
  let old := readHome s h q.addr q.size
  match q.op with
  | .load _ => if q.stream && isEdgeHome h then oRead s m.srcHome m.sthr h q.addr q.size else (s, old)
  | .fetch => (s, old)
  | .store => (writeHome s h q.addr q.size q.data m.srcHome m.sthr m.src, 0)
  | .amo op => (writeHome s h q.addr q.size (amoResult op q.size old q.data) m.srcHome m.sthr m.src, old)
  | .lr => (s.modHome h (fun k => { k with resv := addResv k.resv ⟨q.addr / 8, m.srcHome, m.sthr⟩ }), old)
  | .sc =>
      let held := (s.home h).resv.any (fun r => r.granule == q.addr / 8 && r.srcHome == m.srcHome && r.thread == m.sthr)
      if q.local_ && held then (writeHome s h q.addr q.size q.data m.srcHome m.sthr m.src, 0) else (s, 1)
  | .barrive => (writeHome s h q.addr 8 (barriveResult old).1 m.srcHome m.sthr m.src, (barriveResult old).2)
  | .watch reg =>
      (if reg then s.modHome h (fun k => { k with watches := addWatch h k.watches ⟨q.addr / 8, m.src, m.srcHome, m.sthr, q.id⟩ }) else s, old)
  | _ => (s, 0)

/-! Where an answer goes -/

/-- A loaded value in a register: `width` bytes, sign- or zero-extended. -/
def extendTo (width : Nat) (signed : Bool) (v : Nat) : Word64 :=
  if signed then sext (8 * width) v else BitVec.ofNat 64 (v % 256 ^ width)

/-- `n` bytes at byte lane `o` of a vector register. -/
def vPutBytes (v : VWord) (o n d : Nat) : VWord :=
  let old := v.toNat
  BitVec.ofNat 512 (old - old / 256 ^ o % 256 ^ n * 256 ^ o + d % 256 ^ n * 256 ^ o)

/-- The answer to a scalar access. -/
def applyDst (s : State) (g h : Nat) (d : OutDst) (v : Nat) : State :=
  match d with
  | .nowhere | .gone => s
  | .x rd width sg => s.modThread g h (·.putX rd (extendTo width sg v))
  | .f rd => s.modThread g h (·.putF rd (BitVec.ofNat 32 v))
  | .v vd buf => s.modTile g (·.putV vd buf)
  | .test rd target => s.modThread g h (·.putX rd (if target ≤ v then 1 else 0))
  | .watch => s.modThread g h (fun t => t.modRun (fun r => { r with answer := some v }))

/-! Accesses that wait to be injected (13 R286, 17 R361) -/

/-- The access ids of a thread with a message that has not been injected. -/
def State.unsentIds (s : State) (g h : Nat) : List Nat :=
  (s.tile g).e.unsent.foldl (fun l u => match u.msg.body with
    | .mem q => if u.msg.sthr = h ∧ !l.contains q.id then l ++ [q.id] else l
    | _ => l) []

/-- A thread never has more than 16 accesses issued and not injected (17 R361). -/
def State.roomToIssue (s : State) (g h : Nat) : Bool := decide ((s.unsentIds g h).length < 16)

/-- Does a fence that its thread has passed hold a waiting access back (13 R287)? -/
def State.unsentHeld (s : State) (g : Nat) (u : Unsent) : Bool := u.cls != 0 && s.fenceHeld g u.msg.sthr u.cls u.msg.dstHome

/-- A message of an access leaves the tile, or waits: for a fence that its thread has passed, behind those that the router has not accepted, or
behind one to its home. -/
def State.sendAccess (s : State) (g : Nat) (m : Msg) (flat cls : Nat) : State :=
  if s.canInject g m.vc m.len && !s.unsentHeld g ⟨m, flat, false, cls⟩ &&
    !(s.tile g).e.unsent.any (fun u => u.msg.vc == m.vc && (u.msg.dstHome == m.dstHome || !s.unsentHeld g u)) then s.inject g m
  else s.modTile g (fun t => t.modEng (fun e => { e with unsent := e.unsent ++ [⟨m, flat, false, cls⟩] }))

/-- The limit of an access counts from its injection (16 R345). -/
def State.injectedNow (s : State) (g : Nat) (m : Msg) : State :=
  match m.body with
  | .mem q => s.modThread g m.sthr (fun t => t.modRun (fun r =>
      { r with outs := r.outs.map (fun o => if o.id = q.id then { o with issued := s.now } else o) }))
  | _ => s

def ReqOp.acc (op : ReqOp) : AccKind :=
  match op with
  | .load _ => .read
  | .lr | .watch _ | .fetch => .probe
  | .store => .write
  | _ => .amo

/-- A replay entry whose address has no translation any more: the access is not performed, and its instruction's miss is taken (12 R278). -/
def State.failReplay (s : State) (g : Nat) (m : Msg) (flat sub : Nat) : State :=
  match m.body with
  | .mem q =>
    match (s.thread g m.sthr).run.outs.find? (fun o => o.id == q.id) with
    | some o =>
      (s.modThread g m.sthr (fun t => t.modRun (fun r => { r with outs := r.outs.filter (fun x => x.id != q.id) }))).trapSoon g m.sthr
        ⟨0x18, sub, flat, o.pc, o.word, false, o.rep⟩
    | none => s
  | _ => s

/-- A thread stopped for a save or an eviction injects nothing more: what it has not injected becomes its replay entries (17 R360, R366). Only
while returns of the thread wait for earlier accesses to be performed (10 R243) are those still injected (DEDUCED, assumption 117). -/
def State.savesUnsent (s : State) (g h : Nat) : Bool :=
  let r := (s.thread g h).run
  let q := if h = 0 then (s.thread (s.leaderOf g) 0).run.stop else r.stop
  r.ts == .stopped && !(s.tile g).e.returns.any (fun x => x.1 == h) && (r.stop.slice || r.stop.evict || (r.stop.leader && (q.slice || q.evict)))

/-- One waiting access: injected, or kept, with the VCs, and from 16 on the homes, that later ones may not use. -/
def State.pumpOne (g : Nat) (a : State × List Unsent × List Nat) (u : Unsent) : State × List Unsent × List Nat :=
  let (s, kept, shut) := a
  let stay (s : State) : State × List Unsent × List Nat := (s, kept ++ [u], shut ++ [u.msg.vc])
  let go (m : Msg) : State × List Unsent × List Nat := ((s.inject g m).injectedNow g m, kept, shut)
  if s.savesUnsent g u.msg.sthr then (s, kept ++ [u], shut)
  else if s.unsentHeld g u || shut.contains (16 + u.msg.dstHome) then (s, kept ++ [u], shut ++ [16 + u.msg.dstHome])
  else if shut.contains u.msg.vc || !s.canInject g u.msg.vc u.msg.len then stay s
  else match u.msg.body with
    | .mem q =>
      if u.replay && pathOf u.flat != 1 then
        match translate s g (s.thread g u.msg.sthr).run.xl u.flat q.size q.op.acc with
        | .place p => go { u.msg with dst := p.dst, dstHome := p.home, body := .mem { q with addr := p.addr } }
        | .walk => stay (s.askWalk g ⟨u.msg.sthr, 0, u.flat, q.op.acc, q.size⟩)
        | .miss sub => (s.failReplay g u.msg u.flat sub, kept, shut)
      else go u.msg
    | _ => go u.msg

/-- The router takes what it can of the accesses that wait, in their order. -/
def State.pump (s : State) (g : Nat) : State :=
  match (s.tile g).e.unsent with
  | [] => s
  | us =>
    let (s, kept, _) := us.foldl (State.pumpOne g) (s, [], [])
    s.modTile g (fun t => t.modEng (fun e => { e with unsent := kept }))

/-- A restored thread first replays its entries and receives their results (17 R361, R363). -/
def State.replaying (s : State) (g h : Nat) : Bool :=
  (s.tile g).e.unsent.any (fun u => u.replay && u.msg.sthr == h) ||
  (s.thread g h).run.outs.any (fun o => o.replay && !o.dst.silent)

/-! Issue -/

/-- Nothing at the tile's own home stands before an access of the thread: no request waits there or on the way to it, which t0 and t1 send in
one order (13 R284), and no claim covers it. -/
def ownReady (s : State) (g a n : Nat) : Bool :=
  !((s.tile g).e.unsent.any (fun u => u.msg.dstHome == g && u.msg.vc == 13)) && !((s.home g).inbox.any (fun m => m.kind == 3 || m.kind == 5)) && !(decide (a < 1048576) && s.claimed g a n) &&
  !(a / 1048576 == 5 && !(s.tile g).e.mq.isEmpty)

/-- Class bits of the access kinds (02 R37, 13 R280). -/
def clsR : Nat := 2
def clsW : Nat := 1
def clsO : Nat := 4
def clsI : Nat := 8

/-- An acquire of the thread is not complete: it holds back every later access (13 R285). -/
def Thread.held (t : Thread) : Bool := t.run.outs.any (·.aq)

/-- The thread has consumed, at its issue, a value that was written at `n`: the writes before it are known complete to the thread (01 R20;
assumption 88). -/
def Thread.acquired (t : Thread) (n : Nat) : Thread := t.modRun (fun r => { r with acq := max r.acq n })

/-- A read of the thread has returned a value that was written at `n` (01 R20). -/
def Thread.readOf (t : Thread) (home cls : Nat) (d : OutDst) (n : Nat) : Thread := t.modRun (·.noteRead home cls d n)

/-- Does the operation read its granule? -/
def ReqOp.reads (op : ReqOp) : Bool := match op with | .store => false | _ => true

/-- `perf` at the write whose value a request read, 0 where it read none. -/
def State.readFrom (s : State) (h : Nat) (q : MemReq) : Nat :=
  if q.op.reads && !(isTileHome h && decide (1048576 ≤ q.addr)) then s.lastWrite h q.addr q.size else 0

/-- Does a request address the stream window of a tile (12 R268)? Such a store travels as one stream-data word on its VC. -/
def toStream (p : Place) : Bool := isTileHome p.home && p.addr / 1048576 == 7

/-- Payload flits of a request. -/
def ReqOp.flits (op : ReqOp) : Nat := match op with | .load _ | .lr | .watch _ | .fetch => 1 | _ => 2

/-- The message of a request of a thread. -/
def reqMsg (s : State) (g h : Nat) (p : Place) (q : MemReq) : Msg :=
  if toStream p then s.msgFrom g h p.dst p.home (p.addr % 1048576 / 8) 1 1 false 0 0 0 (.mem q)
  else s.msgFrom g h p.dst p.home 13 3 q.op.flits false 0 0 0 (.mem q)

/-- The request of a thread leaves it. -/
def State.sendReq (s : State) (g h : Nat) (p : Place) (q : MemReq) (flat cls : Nat) : State :=
  (s.nextSeq g h).sendAccess g (reqMsg s g h p q) flat cls

/-- Is an access of a class performed by the thread's own tile at once? -/
def ownNow (s : State) (g h n : Nat) (p : Place) (cls : Nat) : Bool :=
  p.home == g && p.dst == s.nameOf g && ownReady s g p.addr n && !toStream p && !s.fenceHeld g h cls p.home

/-- An access to a register window of the own tile reaches it as a message does (12 R266): it wakes a thread in `wfi` (R267). -/
def State.windowWake (s : State) (g a : Nat) : State :=
  if a < 1048576 then s else (s.modThread g 0 Thread.wfiWake).modThread g 1 Thread.wfiWake

/-- An acquire is complete: the point is an o refresh point, and the access is ordered before what follows (13 R285, R289; 01 R20). -/
def State.acquireDone (s : State) (g h : Nat) (aq : Bool) (n : Nat) : State :=
  if aq then s.modThread g h (fun t => (t.refreshO s.perf).acquired n) else s

/-- One access of the current thread at a place. Own accesses with nothing before them are performed at once; the others leave as
requests and stay outstanding. -/
def issueReq (s : State) (p : Place) (q : MemReq) (cls : Nat) (aq : Bool) (dst : OutDst) (flat : Nat) (posted : Bool) : State :=
  let g := s.focus.tile
  let h := s.focus.thread
  if ownNow s g h q.size p cls then
    let n := s.readFrom g q
    let (s', v) := doReq (s.windowWake g p.addr) g (reqMsg s g h p q) q
    ((applyDst s' g h dst v).modThread g h (·.readOf g cls dst n)).acquireDone g h aq n
  else
    let id := (s.tile g).e.nextId
    let q := { q with id := id }
    let s := s.modTile g (fun t => t.modEng (fun e => { e with nextId := id + 1 }))
    let s := s.modThread g h (fun t => t.modRun (fun r => { r with outs := r.outs ++
      [{ id := id, parts := [⟨p.home, cls, 0⟩], dst := dst, aq := aq, pc := t.r.pc, word := s.focus.word, flats := [(0, flat)],
         issued := s.now, posted := posted, rep := t.repMark }] }))
    s.sendReq g h p q flat cls

/-- What an address of the current thread comes to: a trap, a walk to wait for, or a place (12 R263, R275). -/
inductive Target where
  | trap (cause sub : Nat)
  | walk (k : AccKind)
  | place (p : Place)
  deriving DecidableEq, Repr

def WinKind.acc (k : WinKind) : AccKind :=
  match k with
  | .atomic => .amo
  | .store | .vstore => .write
  | .probe => .probe
  | _ => .read

def target (s : State) (a size : Nat) (k : WinKind) : Target :=
  let g := s.focus.tile
  let h := s.focus.thread
  match checkAccess s g h a size k with
  | some c => .trap c 0
  | none =>
    if pathOf a = 1 then .place (placeOfTileAddr a)
    else match translate s g s.me.run.xl a size k.acc with
      | .place p => .place p
      | .walk => .walk k.acc
      | .miss sub => .trap 0x18 sub

/-- Class of an access by its path and home (13 R280). -/
def classOf (a : Nat) (p : Place) (write : Nat) : Nat :=
  if pathOf a = 2 then clsO else if isTileHome p.home ∨ isEdgeHome p.home then write else clsI

/-- Class of a kind of access before the path and home are known. -/
def WinKind.cls (k : WinKind) : Nat := match k with | .load | .vload | .probe => 2 | .store | .vstore => 1 | .atomic => 3

/-- Must an access of t0 to its own scratchpad wait for a queued matrix entry (06 R137): a load for an entry's write to an overlapping
byte, a store also for an entry's read? -/
def mqConflict (s : State) (p : Place) (n : Nat) (write : Bool) : Bool :=
  let hit (x : Nat × Nat) : Bool := decide (x.1 < p.addr + n) && decide (p.addr < x.1 + x.2)
  s.focus.thread == 0 && p.home == s.focus.tile && decide (p.addr < 131072) &&
  s.myTile.e.mq.any (fun e => e.writes.any hit || (write && e.reads.any hit))

/-- The common course of a scalar access: checks, translation, the poison of own granules, and issue. -/
def access (s : State) (a size : Nat) (k : WinKind) (go : State → Place → State) : State :=
  if s.me.held then s.waitHere
  else match target s a size k with
    | .trap c sub => s.takeTrap c sub a
    | .walk kd => (s.askWalk s.focus.tile ⟨s.focus.thread, 0, a, kd, size⟩).waitHere
    | .place p =>
      if k ≠ .store ∧ p.home = s.focus.tile ∧ poisonedAt s p.home p.addr size then
        s.takeTrap 0x21 0 (a / 8 * 8)
      else if mqConflict s p size k.isWrite ∨
        (!ownNow s s.focus.tile s.focus.thread size p (classOf a p k.cls) ∧ !s.roomToIssue s.focus.tile s.focus.thread) then s.waitHere
      else go s p

def mkReq (op : ReqOp) (p : Place) (size data : Nat) (a : Nat) : MemReq :=
  { op := op, addr := p.addr, size := size, data := data, id := 0, lane := 0, local_ := false, stream := pathOf a == 2,
    awaited := op != .store }

/-- Sizes, signs and destinations of the loads. -/
def loadSize : LoadOp → Nat
  | .lb | .lbu => 1 | .lh | .lhu => 2 | .lw | .lwu | .flw => 4 | .ld => 8
def loadSigned : LoadOp → Bool
  | .lb | .lh | .lw | .ld => true
  | _ => false
def loadDst (op : LoadOp) (rd : Nat) : OutDst := if op = .flw then .f rd else .x rd (loadSize op) (loadSigned op)
def storeSize : StoreOp → Nat
  | .sb => 1 | .sh => 2 | .sw | .fsw => 4 | .sd => 8

/-- t2's accesses: only window 0 of its own tile, performed at once (15 R325). -/
def t2Place (s : State) (a size : Nat) : Bool :=
  pathOf a == 1 && addrName a == s.nameOf s.focus.tile && addrWin a == 0 && decide (addrOff a + size ≤ 131072)

end Sys2Proof.Machine
end

