-- ==== Sys2Proof/Machine/Leaven.lean ====
section
/-!
DEFINITION. Leaven: shares, returns and GIVE() (10 R239 to R244). What the leaven instructions and steps do is in Quiesce.lean.
-/
namespace Sys2Proof.Machine

def wholeWeight : Nat := 4611686018427387904
def borrowWeight : Nat := 1099511627776
/-- The share of an exponent (10 R239). -/
def shareOf (lexp : Nat) : Nat := 2 ^ (62 - lexp)

/-! Domains -/

/-- A control message of the root tile of a domain about a borrow (R242, R244). -/
def State.sendBorrow (s : State) (rt op d : Nat) (m : Msg) (lv : Bool) : State :=
  let t := match m.body with | .borrow _ _ t => t | _ => 0
  s.inject rt { dst := m.src, src := s.homeName rt, dstHome := m.srcHome, srcHome := rt, vc := 15, kind := 7, lv := lv,
                lexp := if lv then 22 else 0, len := 0, region := s.homeRegion rt, handler := 0, seq := 0, sthr := 3,
                aux := 16384 * op + d, body := .borrow op d t }

/-- A grant lowers HOME by its weight. -/
def State.sendGrant (s : State) (rt d : Nat) (m : Msg) : State :=
  (s.modDomain (clusterOf rt) d (fun e => { e with home := e.home - borrowWeight })).sendBorrow rt 1 d m true

/-- A refusal, with the report to the island of the root cluster. -/
def State.sendRefusal (s : State) (rt d : Nat) (m : Msg) : State := (s.sendBorrow rt 2 d m false).notice (islandAt rt) 0x43 d

/-- The requests that wait for a domain that has ended are refused, so that no GIVE() waits for ever (R244). -/
def State.refuseBorrows (s : State) (c d : Nat) : State :=
  let hit (m : Msg) : Bool := m.aux % 64 == d
  let ms := (s.cluster c).borrows.filter hit
  ms.foldl (fun s m => s.sendRefusal m.dstHome d m) (s.modCluster c (fun k => { k with borrows := k.borrows.filter (fun m => !hit m) }))

/-- A domain becomes FREE in every cluster of its region (R238). -/
def State.freeDomain (s : State) (r c d : Nat) : State :=
  (s.domClusters r c).foldl (fun s k => (s.modCluster k (fun q => { q with domains := q.domains.del d })).refuseBorrows k d) s

/-! Returns -/

/-- The bits of a weight, in descending order (10 R243). -/
def weightBits (w : Nat) : List Nat := ((List.range 63).reverse).filter (fun b => w / 2 ^ b % 2 = 1)

/-- One return message of bit `b` of a weight to the root of domain `d` (10 R243), from the tile `g`. With the directory entry
cleared there is no root left, and the weight is dropped with a notice (10 R238). -/
def State.sendReturn (s : State) (g h d b : Nat) : State :=
  let e := s.domain (clusterOf g) d
  if e.state = 0 then s.notice (islandOf g) 0x40 d
  else s.sendFrom g h e.root (nameTile e.root) 15 6 0 true (62 - b) d 0 (.leavenReturn 0 d)

/-- A share of a tile's hardware goes back to its root (10 R243). -/
def State.hwReturn (s : State) (g d lexp : Nat) : State :=
  let e := s.domain (clusterOf g) d
  if e.state = 0 then s.notice (islandOf g) 0x40 d
  else s.sendHw g e.root (nameTile e.root) 15 6 0 true lexp (s.regionIdOf g) d 0 (.leavenReturn 0 d)

/-- A weight of a tile's hardware goes back, bit by bit. -/
def State.hwReturnAll (s : State) (g d w : Nat) : State := (weightBits w).foldl (fun s b => s.hwReturn g d (62 - b)) s

/-- A share that an island returns for a cluster goes to its root, found in the cluster's directory (10 R252, R253); without one the weight is
dropped with a report. -/
def State.returnShare (s : State) (c dom lexp : Nat) : State :=
  let e := s.domain c dom
  if e.state = 0 then s.notice (islandOfCluster c) 0x40 dom
  else
    let i := islandHome (s.policing (c / 3072 * 256 + (s.cluster c).region) (islandOfCluster c))
    s.sendHw i e.root (nameTile e.root) 15 6 0 true lexp (s.cluster c).region dom 0 (.leavenReturn 0 dom)

/-- Accesses of a thread that a leaven return waits for (10 R243). -/
def Thread.postedIds (t : Thread) : List Nat := (t.run.outs.filter (fun o => o.posted)).map (fun o => o.id)

/-- Sends the returns whose earlier accesses have all been performed. -/
def State.flushReturns (s : State) (g : Nat) : State :=
  let alive (h : Nat) : List Nat := (s.thread g h).postedIds
  let rs := (s.tile g).e.returns.map (fun r => (r.1, r.2.1, r.2.2.1, r.2.2.2.filter (fun i => (alive r.1).contains i)))
  let s := s.modTile g (fun t => t.modEng (fun e => { e with returns := rs.filter (fun r => !r.2.2.2.isEmpty) }))
  (rs.filter (fun r => r.2.2.2.isEmpty)).foldl (fun s r => s.sendReturn g r.1 r.2.2.1 r.2.1) s

/-- Room for the messages of a weight in the tile's return buffer of 16 (10 R243)? -/
def State.returnRoom (s : State) (g w : Nat) : Bool := decide ((s.tile g).e.returns.length + (weightBits w).length ≤ 16) || w == 0

/-- Returns a weight of a thread to the root of a domain. -/
def State.giveBack (s : State) (g h d w : Nat) : State :=
  let ids := (s.thread g h).postedIds
  let s := s.modTile g (fun t => t.modEng (fun e => { e with returns := e.returns ++ (weightBits w).map (fun b => (h, b, d, ids)) }))
  s.flushReturns g

/-- `qwret` on a thread: its whole weight goes back (10 R248). -/
def State.returnHeld (s : State) (g h : Nat) : State :=
  let t := s.thread g h
  let s := s.modThread g h (fun t => t.modRegs (fun r => { r with weight := 0 }))
  if t.r.weight = 0 then s else s.giveBack g h t.r.qwDom t.r.weight

/-- A share that GIVE() took, or the wait for a grant (10 R240). -/
inductive Give where
  | share (lv : Bool) (lexp dom : Nat)
  | wait
  deriving DecidableEq, Repr

/-- GIVE() of the current thread. -/
def State.give (s : State) : State × Give :=
  let g := s.focus.tile
  let h := s.focus.thread
  let t := s.me
  let w := t.r.weight
  let noMore (s : State) : State := s.modMe (fun t => { (t.modRegs (fun r => { r with weight := 0, qwV := false })) with
    run := { t.run with give := .none } })
  if !t.r.qwV ∨ w = 0 then (s, .share false 0 0)
  else if w = 1 then
    match t.run.give with
    | .refused => (noMore s, .share false 0 0)
    | .asked => (s, .wait)
    | _ =>
      let e := s.domain (clusterOf g) t.r.qwDom
      if e.state = 0 then (noMore s, .share false 0 0)
      else
        let s := s.modMe (fun t => t.modRun (fun r => { r with give := .asked }))
        (s.sendFrom g h e.root (nameTile e.root) 15 7 0 false 0 t.r.qwDom 0 (.borrow 0 t.r.qwDom h), .wait)
  else
    let b := Nat.log2 w
    (s.modMe (fun t => t.modRegs (fun r => { r with weight := w - 2 ^ (b - 1) })), .share true (63 - b) t.r.qwDom)

end Sys2Proof.Machine
end

