-- ==== Sys2Proof/Machine/Fetch.lean ====
section
/-!
DEFINITION. Issue: which instruction the thread in focus executes next (01 R18 to R22, 04 R86, 09 R224, R225), and the passing of
time.
-/
namespace Sys2Proof.Machine

def State.lookAt (s : State) (g h : Nat) : State := { s with focus := { s.focus with tile := g, thread := h } }

/-- Steps without an encoding: the hardware's, the islands', the host's. -/
def isEvent (i : Instr) : Bool :=
  match i with
  | .illegalInstruction _ => false
  | i => (encodeRaw i).isNone

/-- The word a fetch at an offset sees: the present content, or an old one that `fence.i` has not made invisible (01 R20). -/
def fetchWord (s : State) (g h off : Nat) : Nat :=
  let cur := s.mem.readNat (padKey g off) 4
  match (s.thread g h).run.stale.look (off / 4) [] with
  | [] => cur
  | olds => (cur :: olds.map (fun x => x.old)).getD (s.free % (olds.length + 1)) cur

/-- What the thread in focus does next: wait, or execute an instruction. -/
inductive Issue where
  | wait (s : State)
  | go (s : State) (i : Instr)
  deriving DecidableEq, Repr

/-- A decoded word, with the interlock of 01 R22; an illegal word is the step that takes the trap. -/
def issueWord (s : State) (w : Nat) : Issue :=
  let s := { s with focus := { s.focus with word := w } }
  match decode w with
  | .ok i =>
    if s.me.interlocked i then .wait s
    else .go (if s.me.run.seen.isEmpty then s else s.modMe (fun t => t.modRun (·.dependOn (regsUsed i)))) i
  | .reject _ => .go s (.illegalInstruction w)

/-- Does an enabled breakpoint of the tile stand at the thread's pc (21 R428)? t2 never stops inside a handler (01 R6). -/
def atBreakpoint (s : State) (g h : Nat) : Bool :=
  let t := s.thread g h
  decide (h ≤ 1) && (s.region (s.regionOf g)).dbgEn && !t.run.dbg.atBrk && t.run.rep.isNone &&
  (s.tile g).c.brk.any (fun b => b.2.toNat / 9223372036854775808 = 1 && (b.2.toNat / 2 ^ 61 % 4 = h) &&
    b.2.toNat % 131072 / 4 == pcOff t.r.pc / 4)

def issue (s : State) : Issue :=
  let g := s.focus.tile
  let h := s.focus.thread
  let t := s.thread g h
  if t.run.ts ≠ .running then .wait s
  -- a due stop or trap is taken at the boundary, or holds the next instruction until it can be
  else if s.heldForStop g h then .wait (s.stopDue g h)
  else if s.replaying g h then .wait (s.pump g)
  else if h = 0 ∧ (s.attachedOf g).any (fun m => decide (8 ≤ (s.thread m 0).run.gather.buf.length)) ∧ t.run.gather.role == .leader then .wait s
  -- a landing handler is over after 4,096 instructions (15 R325)
  else if h = 2 ∧ 4096 ≤ t.r.instret then .wait s
  else if atBreakpoint s g h then (if s.midway g h then .wait s else .go s .breakpointHalt)
  else match t.run.rep with
    | some r => issueWord s r.word
    | none =>
      if h = 0 ∧ t.run.gather.role == .attached then
        match t.run.gather.buf with
        | [] => .wait s
        | w :: _ => issueWord s w.word
      else
        let off := pcOff t.r.pc
        -- execution past the scratchpad's end: instruction access fault (01 R19, 16 R339)
        if 131072 ≤ off then .wait (({ s with focus := { s.focus with word := 0 } }).takeTrap 0x01 0 t.r.pc.toNat)
        -- a fetch is a read of its granule (16 R351; DEDUCED)
        else if poisonedAt s g off 4 then
          .wait (({ s with focus := { s.focus with word := 0 } }).takeTrap 0x21 0 (s.prefixOf g + off / 8 * 8))
        else
          let w := fetchWord s g h off
          issueWord (if (t.run.stale.look (off / 4) []).isEmpty then s else s.used) w

/-! The hang condition (10 R256) -/

/-- A thread does not stand against the condition: IDLE, or with its entry posted. -/
def Run.hangs (r : Run) : Bool :=
  !r.chosen && (match r.ts with
    | .idle => true
    | .sleeping | .parked => r.wait.isSome
    | _ => false)

/-- Does the tile stand against the condition for its region? -/
def Tile.quietFor (id : Nat) (t : Tile) : Bool :=
  (t.thread 0).run.hangs && (t.thread 1).run.hangs && (t.thread 2).run.ts == .idle && t.e.copies.isEmpty && t.e.landNow.isNone &&
  t.rt.bufs.all (fun b => b.2.all (fun m => m.region != id)) && t.e.unsent.all (fun u => u.msg.region != id)

/-- The posted entries of a region, with tile and thread. -/
def State.postedWaits (s : State) (r : Nat) : List (Nat × Nat × WaitEntry) :=
  ((s.regionTiles r).map (fun g => ([0, 1] : List Nat).filterMap (fun h =>
    match (s.thread g h).run.wait with
    | some w => if (s.thread g h).run.ts == .sleeping || (s.thread g h).run.ts == .parked then some (g, h, w) else none
    | none => none))).flatten

/-- Is the region hung (10 R256): in every one of its clusters, an entry is posted? -/
def State.hung (s : State) (r : Nat) : Bool :=
  let ws := s.postedWaits r
  let cs := (s.clusters.filter (fun p => p.1 / 3072 == r / 256 && p.2.region == r % 256))
  !ws.isEmpty && (s.region r).clusters.all (fun c => ws.any (fun w => clusterOf w.1 == c)) && ws.all (fun w => w.2.2.kind != 6) && (s.regionTiles r).all (fun g => (s.tile g).quietFor (r % 256)
    && (s.home g).inbox.all (fun m => m.region != r % 256 || decide (12 < m.vc))) &&
  cs.all (fun p => p.2.queues.all (fun q => q.2.isEmpty) && (s.island (islandOfCluster p.1)).heldRecs.all (fun x => x.1 != p.1))

/-- Since when the condition holds, for a span of time in which nothing happens. -/
def hangClock (s : State) (r : Nat) (q : Region) : Region :=
  if s.hung r then { q with hangSince := some (q.hangSince.getD s.now) } else { q with hangSince := none, hangRaised := false }

/-- Time passes: the sections of threads that are not stopped are charged (17 R368), and the hang condition is watched. The time bases of all
tiles agree (DESIGN CHOICE, assumption 103). -/
def elapse (s : State) (ns : Nat) : State :=
  { s with regions := s.regions.map (fun (p : Nat × Region) => (p.1, hangClock s p.1 p.2)),
           now := (s.now + ns) % 18446744073709551616,
           tiles := s.tiles.map (fun p => (p.1, { p.2 with thr := p.2.thr.map (fun q =>
             (q.1, if q.2.run.npd = 0 ∨ q.2.run.ts = .stopped then q.2
                   else q.2.modRun (fun r => { r with secTime := r.secTime + ns }))) })) }

/-- A word stored where the thread in focus fetches next; the thread runs, alone and with nothing pending. -/
def placeWord (s : State) (w : Nat) : State :=
  let g := s.focus.tile
  let h := s.focus.thread
  let off := pcOff (s.thread g h).r.pc % 131072 / 4 * 4
  let s := { s with agenda := [], mem := s.mem.writeNat (padKey g off) 4 w }
  let fresh (t : Thread) : Run :=
    { t.run with ts := .running, rep := none, outs := [], stale := t.run.stale.del (off / 4), gather := {}, stop := {}, due := [], fences := [],
                 dbg := { t.run.dbg with atBrk := true } }
  s.modThread g h (fun t => { r := { t.r with pc := pcWith t.r.pc off }, run := fresh t })

end Sys2Proof.Machine
end

