-- ==== Sys2Proof/Machine/Scalar.lean ====
section
/-!
DEFINITION. The base subset (02 R40, 04 R72 to R79): integer, control transfer, floating point, loads, stores, atomics, the system
instructions, and the trap of an illegal word.
-/
namespace Sys2Proof.Machine

/-- An instruction of the current thread: its meaning where the thread's class allows it, else the illegal-instruction trap (01 R5). -/
def State.run (s : State) (i : Instr) (body : State → State) : Host.Outcome State Fault Refusal :=
  .next (if classAllows s.focus.thread i then body s else s.illegal)

def execIllegalInstruction (w : Nat) (s : State) : Host.Outcome State Fault Refusal :=
  .next (({ s with focus := { s.focus with word := w } }).illegal)

/-! Integer and control transfer -/

def doInteger (op : IntOp) (rd rs1 rs2 : Nat) (imm : Int) (s : State) : State :=
  (s.putX rd (intResult op (s.getX rs1) (s.getX rs2) imm s.me.instrPc)).retire false

def execIntegerOp (op : IntOp) (rd rs1 rs2 : Nat) (imm : Int) (s : State) : Host.Outcome State Fault Refusal :=
  s.run (.integerOp op rd rs1 rs2 imm) (doInteger op rd rs1 rs2 imm)

/-- Is the transfer taken, and where to? -/
def ctlTarget (op : CtlOp) (a b pc : Word64) (imm : Int) : Bool × Word64 :=
  let t := pc + immW imm
  match op with
  | .jal => (true, t)
  | .jalr => (true, (a + immW imm) &&& 0xFFFFFFFFFFFFFFFE)
  | .beq => (a == b, t)
  | .bne => (a != b, t)
  | .blt => (a.slt b, t)
  | .bge => (!a.slt b, t)
  | .bltu => (a.ult b, t)
  | .bgeu => (!a.ult b, t)

/-- 01 R19: the target must lie in the thread's own scratchpad and be word-aligned. DESIGN CHOICE (assumption 89): a target that fails both
tests is an access fault. -/
def ctlCheck (s : State) (t : Word64) : Option Nat :=
  if t.toNat / 131072 ≠ s.prefixOf s.focus.tile / 131072 then some 0x01
  else if t.toNat % 4 ≠ 0 then some 0x00 else none

def doControl (op : CtlOp) (rd rs1 rs2 : Nat) (imm : Int) (s : State) : State :=
  let pc := s.me.r.pc
  let (taken, t) := ctlTarget op (s.getX rs1) (s.getX rs2) pc imm
  if !taken then s.retire false
  else match ctlCheck s t with
    | some c => s.takeTrap c 0 t.toNat
    | none =>
      let s := if op = .jal ∨ op = .jalr then s.putX rd (pc + 4) else s
      s.retireTo (pcOff t)

def execControlTransfer (op : CtlOp) (rd rs1 rs2 : Nat) (imm : Int) (s : State) : Host.Outcome State Fault Refusal :=
  s.run (.controlTransfer op rd rs1 rs2 imm) (doControl op rd rs1 rs2 imm)

/-! Floating point (04 R79). PRESUMED from the RISC-V F extension. -/

/-- The rounding mode of a word; `frm` values 5 to 7 are illegal to use. -/
def roundingMode (rm frm : Nat) : Option RMode :=
  match if rm = 7 then frm else rm with
  | 0 => some .rne | 1 => some .rtz | 2 => some .rdn | 3 => some .rup | 4 => some .rmm | _ => none

/-- Conversion of FP32 into an integer between `lo` and `hi`. -/
def fcvtInt (r : RMode) (lo hi : Int) (x : FVal) : Int × Flags :=
  match x with
  | .nan _ _ => (hi, .invalid)
  | .inf n => (if n then lo else hi, .invalid)
  | .fin n m e =>
    let (v, inexact) := roundInt r n m e
    if v < lo then (lo, .invalid) else if hi < v then (hi, .invalid) else (v, { nx := inexact })

/-- `fmin` and `fmax`: the number where one operand is a NaN. -/
def fminmax (isMax : Bool) (ca cb : Nat) : Nat × Flags :=
  let a := fdecode fp32 ca
  let b := fdecode fp32 cb
  let fl := Flags.invalidIf (a.isSignalling || b.isSignalling)
  if a.isNan && b.isNan then (0x7FC00000, fl)
  else if a.isNan then (cb, fl)
  else if b.isNan then (ca, fl)
  else if isMax then (if fvLess a b then cb else ca, .none) else (if fvLess b a then cb else ca, .none)

def fclass (x : FVal) : Nat :=
  match x with
  | .inf true => 1
  | .inf false => 128
  | .nan _ q => if q then 512 else 256
  | .fin n m e =>
    if m = 0 then (if n then 8 else 16)
    else if e = fp32.qmin ∧ m < 2 ^ 23 then (if n then 4 else 32)
    else (if n then 2 else 64)

/-- Where an F result goes. -/
inductive FResult where
  | f (code : Nat) (fl : Flags)
  | x (v : Word64) (fl : Flags)
  deriving DecidableEq, Repr

def fpResult (op : FpOp) (r : RMode) (a b c : Nat) (xa : Word64) : FResult :=
  let va := fdecode fp32 a
  let vb := fdecode fp32 b
  let vc := fdecode fp32 c
  let f (x : Raw1) : FResult := let (v, fl) := deliverScalar r x; .f v fl
  let mag := 2147483648
  let flip (n : Nat) : Nat := if n / mag % 2 = 1 then n - mag else n + mag
  let toInt (lo hi : Int) : FResult :=
    let (v, fl) := fcvtInt r lo hi va
    .x (if hi < 4294967296 then sx32 (BitVec.ofInt 32 v) else BitVec.ofInt 64 v) fl
  let ofInt (v : Int) : FResult := f (.val (decide (v < 0)) ⟨v.natAbs, 0, false⟩)
  let cmp (strict : Bool) (ok : Ordering → Bool) : FResult :=
    if va.isNan || vb.isNan then .x 0 (Flags.invalidIf (strict || va.isSignalling || vb.isSignalling))
    else .x (ofBool (ok (fvCmp va vb))) .none
  match op with
  | .fmadd => f (fvFma r va vb vc)
  | .fmsub => f (fvFma r va vb (fvNeg vc))
  | .fnmsub => f (fvFma r (fvNeg va) vb vc)
  | .fnmadd => f (fvFma r (fvNeg va) vb (fvNeg vc))
  | .fadd => f (fvAdd r va vb)
  | .fsub => f (fvAdd r va (fvNeg vb))
  | .fmul => f (fvMul va vb)
  | .fdiv => f (fvDiv va vb)
  | .fsqrt => f (fvSqrt va)
  | .fsgnj => .f (a % mag + b / mag % 2 * mag) .none
  | .fsgnjn => .f (a % mag + (1 - b / mag % 2) * mag) .none
  | .fsgnjx => .f (if b / mag % 2 = 1 then flip a else a) .none
  | .fmin => let (v, fl) := fminmax false a b; .f v fl
  | .fmax => let (v, fl) := fminmax true a b; .f v fl
  | .fcvtws => toInt (-2147483648) 2147483647
  | .fcvtwus => toInt 0 4294967295
  | .fcvtls => toInt (-9223372036854775808) 9223372036854775807
  | .fcvtlus => toInt 0 18446744073709551615
  | .fcvtsw => ofInt (w32 xa).toInt
  | .fcvtswu => ofInt ((w32 xa).toNat : Int)
  | .fcvtsl => ofInt xa.toInt
  | .fcvtslu => ofInt (xa.toNat : Int)
  | .fmvxw => .x (sext 32 a) .none
  | .fmvwx => .f (w32 xa).toNat .none
  | .feq => cmp false (· == .eq)
  | .flt => cmp true (· == .lt)
  | .fle => cmp true (· != .gt)
  | .fclass => .x (BitVec.ofNat 64 (fclass va)) .none

/-- Do the forms of an operation use a rounding mode? -/
def usesRm (op : FpOp) : Bool := match (fpRow op).kind with | .r3f => false | .r2f => false | _ => true

def doFp (op : FpOp) (rm rd rs1 rs2 rs3 : Nat) (s : State) : State :=
  let r := s.me.r
  match if usesRm op then roundingMode rm r.frm else some .rne with
  | none => s.illegal
  | some md =>
    match fpResult op md (r.getF rs1).toNat (r.getF rs2).toNat (r.getF rs3).toNat (s.getX rs1) with
    | .f code fl => ((s.modMe (·.putF rd (BitVec.ofNat 32 code))).raiseF fl).retire false
    | .x v fl => ((s.putX rd v).raiseF fl).retire false

def execFpOp (op : FpOp) (rm rd rs1 rs2 rs3 : Nat) (s : State) : Host.Outcome State Fault Refusal :=
  s.run (.fpOp op rm rd rs1 rs2 rs3) (doFp op rm rd rs1 rs2 rs3)

/-! Loads and stores -/

def doLoad (op : LoadOp) (rd rs1 : Nat) (imm : Int) (s : State) : State :=
  let a := (s.getX rs1 + immW imm).toNat
  let n := loadSize op
  if s.focus.thread = 2 then
    if !t2Place s a n then s.takeTrap 0x05 0 a
    else if a % n ≠ 0 then s.takeTrap 0x04 0 a
    else if poisonedAt s s.focus.tile (addrOff a) n then s.takeTrap 0x21 0 (a / 8 * 8)
    else (applyDst s s.focus.tile 2 (loadDst op rd) (s.loadAt s.focus.tile (addrOff a) n)).retire false
  else
    access s a n .load (fun s p =>
      (issueReq s p (mkReq (.load (loadSigned op)) p n 0 a) (classOf a p clsR) false (loadDst op rd) a false).retire false)

def execLoad (op : LoadOp) (rd rs1 : Nat) (imm : Int) (s : State) : Host.Outcome State Fault Refusal :=
  s.run (.load op rd rs1 imm) (doLoad op rd rs1 imm)

/-- The data of a store. -/
def storeData (op : StoreOp) (s : State) (rs2 : Nat) : Nat := if op = .fsw then (s.me.r.getF rs2).toNat else (s.getX rs2).toNat

def doStore (op : StoreOp) (rs1 rs2 : Nat) (imm : Int) (s : State) : State :=
  let a := (s.getX rs1 + immW imm).toNat
  let n := storeSize op
  let d := storeData op s rs2
  if s.focus.thread = 2 then
    if !t2Place s a n then s.takeTrap 0x07 0 a
    else if a % n ≠ 0 then s.takeTrap 0x06 0 a
    else (s.storeAt s.focus.tile (addrOff a) (natBytes n d) s.focus.tile 2).retire false
  else
    access s a n .store (fun s p =>
      (issueReq s p (mkReq .store p n d a) (classOf a p clsW) false .nowhere a true).retire false)

def execStore (op : StoreOp) (rs1 rs2 : Nat) (imm : Int) (s : State) : Host.Outcome State Fault Refusal :=
  s.run (.store op rs1 rs2 imm) (doStore op rs1 rs2 imm)

/-! Atomics (04 R78, 14 R295, R296, 13 R285) -/

/-- Is every earlier access of the thread complete: those with an answer, messages, matrix entries (13 R281, R285)? -/
def State.allDone (s : State) : Bool :=
  let g := s.focus.tile
  let h := s.focus.thread
  s.me.run.outs.isEmpty && (s.sendsOpen g h 5).isEmpty && (h != 0 || s.myTile.e.mq.isEmpty) && s.me.run.pend.all (fun p => !p.wantsWords)

/-- An annotated access waits for what rl orders before it, with the switch point of a fence whose predecessor set holds r (13 R285,
R287). -/
def State.ordered (s : State) (rl : Bool) (go : State → State) : State :=
  if !rl then go s
  else if !s.switched then s.switchFirst
  else if s.allDone then go s
  else s.waitHere

def doAmo (op : AmoOp) (dw aq rl : Bool) (rd rs1 rs2 : Nat) (s : State) : State :=
  let a := (s.getX rs1).toNat
  let n := if dw then 8 else 4
  s.ordered rl (fun s => access s a n .atomic (fun s p =>
    (issueReq s p { mkReq (.amo op) p n (s.getX rs2).toNat a with awaited := rd != 0 } (clsR + clsW) aq
      (if rd = 0 then .nowhere else .x rd n true) a true).retire false))

def execAmo (op : AmoOp) (dw aq rl : Bool) (rd rs1 rs2 : Nat) (s : State) : Host.Outcome State Fault Refusal :=
  s.run (.amo op dw aq rl rd rs1 rs2) (doAmo op dw aq rl rd rs1 rs2)

/-- LR is a read, but only where atomics are allowed. -/
def lrAllowed (a : Nat) : Bool := pathOf a == 0 || (pathOf a == 1 && addrWin a == 0)

def doLr (dw aq rl : Bool) (rd rs1 : Nat) (s : State) : State :=
  let a := (s.getX rs1).toNat
  let n := if dw then 8 else 4
  if !lrAllowed a then s.takeTrap 0x05 0 a
  else s.ordered rl (fun s => access s a n .probe (fun s p =>
    let s := issueReq s p (mkReq .lr p n 0 a) clsR aq (.x rd n true) a false
    (s.modMe (fun t => t.modRun (fun r => { r with lrAddr := some a }))).retire false))

def execLr (dw aq rl : Bool) (rd rs1 : Nat) (s : State) : Host.Outcome State Fault Refusal :=
  s.run (.lr dw aq rl rd rs1) (doLr dw aq rl rd rs1)

def doSc (dw aq rl : Bool) (rd rs1 rs2 : Nat) (s : State) : State :=
  let a := (s.getX rs1).toNat
  let n := if dw then 8 else 4
  s.ordered rl (fun s => access s a n .atomic (fun s p =>
    let s := issueReq s p { mkReq .sc p n (s.getX rs2).toNat a with local_ := s.me.run.lrAddr == some a }
      (clsR + clsW) aq (.x rd 8 false) a true
    (s.modMe (fun t => t.modRun (fun r => { r with lrAddr := none }))).retire false))

def execSc (dw aq rl : Bool) (rd rs1 rs2 : Nat) (s : State) : Host.Outcome State Fault Refusal :=
  s.run (.sc dw aq rl rd rs1 rs2) (doSc dw aq rl rd rs1 rs2)

/-! Fences (13 R287, R288, 04 R77) -/

/-- Are words of a stream still to be consumed for a `qpopv` whose write a later one has discarded, which a fence with r in its predecessor set
waits for (01 R25, 13 R281)? -/
def popsOpen (s : State) (p sc : Nat) : Bool :=
  p / 2 % 2 == 1 && inScope s s.focus.tile sc s.focus.tile && s.me.run.pend.any (fun x => x.wantsWords)

/-- Does something that a fence of the current thread waits for hold it back? -/
def fenceWaits (s : State) (p sc : Nat) : Bool :=
  popsOpen s p sc || s.unmet s.focus.tile s.focus.thread (s.fenceOrder s.focus.tile s.focus.thread p 0 sc)

/-- Does the fence wait for words, or for a value whose error is taken at the fence at the latest (16 R338)? -/
def fenceHolds (s : State) (p sc : Nat) : Bool :=
  popsOpen s p sc ||
  s.me.run.outs.any (fun o => !o.dst.silent && o.parts.any (fun x => (x.cls &&& p) != 0 && inScope s s.focus.tile sc x.home))

/-- Waiting for a whole set of accesses, with the switch point of a predecessor set that holds r; then `go`. -/
def fenceThen (s : State) (p sc : Nat) (go : State → State) : State :=
  if p / 2 % 2 = 1 ∧ !s.switched then s.switchFirst
  else if fenceWaits s p sc then s.waitHere
  else go (s.fenceReads s.focus.tile s.focus.thread p sc)

/-- A fence (13 R287). It holds back only the accesses of its successor set to the homes in its scope: the thread may pass it while what it
waits for is outstanding, but for values and words that it awaits, and such an access then waits (DESIGN CHOICE, assumption 90: which of the two
happens is a free value). -/
def doFence (p q sc : Nat) (sb : Bool) (s : State) : State :=
  if p / 2 % 2 = 1 ∧ !s.switched then s.switchFirst
  else
    let g := s.focus.tile
    let h := s.focus.thread
    if !fenceWaits s p sc then (s.fenceDone g h p q sc).retire sb
    else if !fenceHolds s p sc ∧ s.free % 2 = 1 then
      let f := s.fenceOrder g h p q sc
      (s.used.modMe (fun t => t.modRun (fun r => { r with fences := r.fences ++ [f] }))).retire sb
    else s.used.waitHere

def execFencex (sb : Bool) (p q sc : Nat) (s : State) : Host.Outcome State Fault Refusal :=
  s.run (.fencex sb p q sc) (doFence p q sc sb)

/-- A `fence` predecessor or successor field as a `fencex` set (04 R77): I or O give i, R gives r and o, W gives w. -/
def fenceSet (f : Nat) : Nat :=
  (if f / 8 % 2 = 1 ∨ f / 4 % 2 = 1 then 8 else 0) + (if f / 2 % 2 = 1 then 6 else 0) + f % 2

def execFence (fm p q rd rs1 : Nat) (s : State) : Host.Outcome State Fault Refusal :=
  s.run (.fence fm p q rd rs1) (doFence (fenceSet p) (fenceSet q) 5 false)

def execFenceTso (rd rs1 : Nat) (s : State) : Host.Outcome State Fault Refusal :=
  s.run (.fenceTso rd rs1) (doFence (fenceSet 3) (fenceSet 3) 5 false)

/-- 01 R20: the thread's own stores, and foreign writes before its last synchronising read, are visible to its fetches from here on. -/
def Run.fenceI (r : Run) : Run :=
  { r with stale := (r.stale.map (fun p => (p.1, p.2.filter (fun x => !x.own && decide (r.acq ≤ x.at_))))).filter (fun p => !p.2.isEmpty) }

/-- Are stores of the current thread to its own scratchpad still to be performed? -/
def State.ownStoresOpen (s : State) : Bool :=
  s.me.run.outs.any (fun o => o.parts.any (fun x => x.home == s.focus.tile && x.cls % 2 == 1))

/-- `fence.i`; the thread's own stores are performed first. -/
def execFenceI (rd rs1 imm : Nat) (s : State) : Host.Outcome State Fault Refusal :=
  s.run (.fenceI rd rs1 imm) (fun s =>
    if s.ownStoresOpen then s.waitHere else (s.modMe (fun t => t.modRun (·.fenceI))).retire false)

/-! System (04 R74 to R76) -/

/-- Is the current thread an attached follower, for which `ecall`, `ebreak` and `wfi` are no-ops (09 R225)? -/
def State.isFollower (s : State) : Bool := s.focus.thread == 0 && s.me.run.gather.role == .attached

def doEcall (s : State) : State :=
  if s.isFollower then s.retire false
  else match s.me.run.answer with
  | some v =>
    -- the reply: a0 the result, a1 the status; the completion is an o refresh point (13 R289)
    (((s.putXn 10 s.me.run.phaseVal).putXn 11 v).modMe (·.refreshO s.perf)).retire false
  | none =>
    if s.me.run.phase = 1 then s.sleep 6 0 (s.getX 17).toNat
    else fenceThen s 15 5 (fun s =>
      let g := s.focus.tile
      let h := s.focus.thread
      let i := islandOf g
      let args := (List.range 8).map (fun k => s.getXn (10 + k))
      -- the call is known by its SEQ: its reply may find the thread stopped or evicted
      let n := s.me.run.seq
      let s := s.sendFrom g h (s.homeName (islandHome i)) (islandHome i) 15 9 5 false 0 0 0 (.syscall args s.me.r.pc.toNat)
      (s.modMe (fun t => t.modRun (fun r => { r with phase := 1, phaseVal := n }))).sleep 6 0 (s.getX 17).toNat)

def execEcall (s : State) : Host.Outcome State Fault Refusal := s.run .ecall doEcall

def doEbreak (s : State) : State :=
  if s.isFollower then s.retire false
  else if s.midway s.focus.tile s.focus.thread then s
  else if s.focus.thread ≠ 2 ∧ (s.region (s.regionOf s.focus.tile)).dbgEn then
    ((s.debugHalt s.focus.tile s.focus.thread).modMe
      (fun t => t.modRun (fun r => { r with dbg := { r.dbg with atEbreak := true } }))).notice (islandOf s.focus.tile) 0x75 (s.nameOf s.focus.tile)
  else s.takeTrap 0x03 0 0

def execEbreak (s : State) : Host.Outcome State Fault Refusal := s.run .ebreak doEbreak

def doWfi (s : State) : State :=
  if s.isFollower then s.retire false
  else match s.me.run.answer with
  | some _ => s.retire false
  | none => s.sleep 5 0 0

def execWfi (s : State) : Host.Outcome State Fault Refusal := s.run .wfi doWfi

/-- WFI_WAKE (04 R76): a wake through the control window, or without a cause. -/
def execWfiWake (s : State) : Host.Outcome State Fault Refusal := .next (s.modMe Thread.wfiWake)

end Sys2Proof.Machine
end

