-- ==== Sys2Proof/Machine/Csr.lean ====
section
/-!
DEFINITION. The control and status registers (01 R11 to R15, 03 R58, 07 R179, 10 R250): reads, writes, and the registers whose
access does more.
-/
namespace Sys2Proof.Machine

/-- Nanoseconds left in the current slice of a region (01 R13, 17 R369). -/
def State.sliceLeft (s : State) (r : Nat) : Nat :=
  let q := s.region r
  if q.sliceLen = 0 then 18446744073709551615 else q.sliceStart + q.grant - s.now

def lpstateWord (l : Loop) : Nat := bit l.lpa 63 + bit l.repa 62 + l.repdone
def qbindWord (b : QBind) : Nat := bit b.v 63 + b.vc * 17179869184 + b.src
def errWordOf (e : ErrWord) : Nat := bit e.v 63 + bit e.ovf 62 + e.cause * 281474976710656 + e.name
def qwdomainWord (r : Regs) : Nat := bit r.qwV 6 + r.qwDom
/-- `gather` (01 R13): a thread outside a gathering reads SIZE 1. -/
def gatherWord (h : Nat) (g : Gather) : Nat :=
  if h = 0 then bit (g.role == .detached) 9 + g.size * 16 + g.index else 16
def mprogWord (e : Engines) : Nat := bit e.mprogV 7 + e.mprogAcc * 32 + e.mprogRows

/-- The contents of a CSR of thread `h`, or none where the number is not listed or not on the thread (01 R11 to R13, R15). -/
def csrRead (s : State) (g h n : Nat) : Option Nat :=
  let t := s.thread g h
  let r := t.r
  let on (ok : Bool) (v : Nat) : Option Nat := if ok then some v else none
  let two := decide (h ≤ 1)
  let wide := decide (h = 0)
  match n with
  | 0x001 => on two r.fflags
  | 0x002 => on two r.frm
  | 0x003 => on two (r.frm * 32 + r.fflags)
  | 0xC00 => some (s.cyclesOf g % 18446744073709551616)
  | 0xC01 => some (s.guestTime (s.regionOf g))
  | 0xC02 => some r.instret
  | 0x800 => on two r.mvc
  | 0x801 => on wide r.mstrideA
  | 0x802 => on wide r.mstrideB
  | 0x803 => on two r.csrcS1.toNat
  | 0x804 => on two r.csrcS2.toNat
  | 0x805 => on two r.cdstS1.toNat
  | 0x806 => on two r.cdstS2.toNat
  | 0x807 => on two (lpstateWord r.loop)
  | 0x808 => on two r.loop.count.toNat
  | 0x809 => on two r.loop.start
  | 0x80A => on two r.loop.last
  | 0x80B => on wide r.fxflags
  | 0x80C => on two (qwdomainWord r)
  | 0x820 => some ((s.tile g).r.lhtbase * 512)
  | 0xCC0 => some (h * 17179869184 + s.nameOf g)
  | 0xCC1 => on two (gatherWord h t.run.gather)
  | 0xCC2 => on two (if h = 0 then 512 * t.run.gather.size else 0)
  | 0xCC3 => some (s.sliceLeft (s.regionOf g))
  | 0xCC4 => on wide (mprogWord (s.tile g).e)
  | 0xCC5 => on two r.weight
  | 0xCC6 => on two (errWordOf r.errword)
  | _ => if 0x810 ≤ n ∧ n ≤ 0x817 then on wide (qbindWord (r.qbind.look (n - 0x810) {})) else none

/-- Does the CSR take writes on the thread? Numbers 0xC00 and up are read-only (01 R13). -/
def csrWritable (h n : Nat) : Bool := decide (n < 0xC00) && (n != 0x820 || h == 0)

/-- A write of a CSR, without the side effects of `qwdomain`. Reserved bits are dropped (01 R12). -/
def Regs.csrSet (r : Regs) (n v : Nat) : Regs :=
  let w := BitVec.ofNat 64 v
  match n with
  | 0x001 => { r with fflags := v % 32 }
  | 0x002 => { r with frm := v % 8 }
  | 0x003 => { r with fflags := v % 32, frm := v / 32 % 8 }
  | 0x800 => if v % 16 < 12 then { r with mvc := v % 16 } else r
  | 0x801 => { r with mstrideA := v % 131072 }
  | 0x802 => { r with mstrideB := v % 131072 }
  | 0x803 => { r with csrcS1 := w }
  | 0x804 => { r with csrcS2 := w }
  | 0x805 => { r with cdstS1 := w }
  | 0x806 => { r with cdstS2 := w }
  | 0x807 => { r with loop := { r.loop with lpa := v / 9223372036854775808 % 2 == 1,
                                            repa := v / 4611686018427387904 % 2 == 1, repdone := v % 64 } }
  | 0x808 => { r with loop := { r.loop with count := w } }
  | 0x809 => { r with loop := { r.loop with start := v % 131072 / 4 * 4 } }
  | 0x80A => { r with loop := { r.loop with last := v % 131072 / 4 * 4 } }
  | 0x80B => { r with fxflags := v % 32 }
  | 0x80C => { r with qwV := v / 64 % 2 == 1, qwDom := v % 64 }
  | _ => r

/-- What a Zicsr word writes, given the old contents (02 R40). PRESUMED from Zicsr. -/
def csrValue (o : CsrArgs) (s : State) (old : Nat) : Nat :=
  let src := if o.imm then o.src else s.getXn o.src
  match o.op with
  | .rw => src
  | .rs => old ||| src
  | .rc => old &&& (18446744073709551615 - src)

/-- The course common to all accesses: `go` gets the old contents and the value to write, if any. -/
def csrCommon (o : CsrArgs) (go : State → Nat → Option Nat → State) (s : State) : State :=
  match csrRead s s.focus.tile s.focus.thread o.csr with
  | none => s.illegal
  | some old =>
    if o.writes then
      if csrWritable s.focus.thread o.csr then go s old (some (csrValue o s old)) else s.illegal
    else go s old none

/-- The end of an access: rd receives the old contents. -/
def csrFinish (o : CsrArgs) (s : State) (old : Nat) : State := (s.putXn o.rd old).retire false

def csrPlain (o : CsrArgs) (s : State) (old : Nat) (w : Option Nat) : State :=
  match w with
  | none => csrFinish o s old
  | some v =>
    if o.csr = 0x820 then csrFinish o (s.modMyTile (fun t => t.modRegs (fun r => { r with lhtbase := v / 512 % 256 }))) old
    else csrFinish o (s.modMe (fun t => t.modRegs (·.csrSet o.csr v))) old

def execCsrAccess (o : CsrArgs) (s : State) : Host.Outcome State Fault Refusal :=
  s.run (.csrAccess o) (csrCommon o (csrPlain o))

/-- A read of `errword` clears it (01 R14). It takes no write. -/
def execErrwordRead (o : CsrArgs) (s : State) : Host.Outcome State Fault Refusal :=
  s.run (.errwordRead o) (csrCommon o (fun s old w =>
    match w with
    | none => csrFinish o (s.modMe (fun t => t.modRegs (fun r => { r with errword := {} }))) old
    | some _ => s.illegal))

/-- `fxflags` waits for every earlier matrix entry to commit (03 R58). -/
def execFxflagsAccess (o : CsrArgs) (s : State) : Host.Outcome State Fault Refusal :=
  s.run (.fxflagsAccess o) (csrCommon o (fun s old w => if s.myTile.e.mq.isEmpty then csrPlain o s old w else s.waitHere))

/-- A write of `qwdomain` that changes it returns the held weight to the old domain (10 R250); with no room in the return buffer it
waits (10 R243). -/
def execQwdomainWrite (o : CsrArgs) (s : State) : Host.Outcome State Fault Refusal :=
  s.run (.qwdomainWrite o) (csrCommon o (fun s old w =>
    match w with
    | none => csrPlain o s old w
    | some v =>
      if v % 128 = old then csrPlain o s old w
      else if !s.returnRoom s.focus.tile s.me.r.weight then s.waitHere
      else csrPlain o (s.returnHeld s.focus.tile s.focus.thread) old w))

/-- A binding of a stream register (07 R179). -/
def Regs.bindQ (r : Regs) (q : Nat) (b : QBind) : Regs := { r with qbind := r.qbind.put q b }

/-- A write of a `qbind` CSR acts as `qbind` or `qfree` (07 R179). -/
def execQbindCsrWrite (o : CsrArgs) (s : State) : Host.Outcome State Fault Refusal :=
  s.run (.qbindCsrWrite o) (csrCommon o (fun s old w =>
    match w with
    | none => csrFinish o s old
    | some v =>
      let bound := v / 9223372036854775808 % 2 == 1
      let vc := v / 17179869184 % 16
      if bound ∧ 12 ≤ vc then s.illegal
      else csrFinish o (s.modMe (fun t => t.modRegs (·.bindQ (o.csr - 0x810) (if bound then ⟨true, vc, v % 17179869184⟩ else {})))) old))

end Sys2Proof.Machine
end

