-- ==== Sys2Proof/Machine/Random.lean ====
section
/-!
DEFINITION. The random-number generator (04 R88 to R92): draws, jumps, seeding, and its instructions.
-/
namespace Sys2Proof.Machine

/-- RNG64(): the output and the next state (04 R88). -/
def rngNext (s0 s1 : Word64) : Word64 × Word64 × Word64 :=
  let out := (s0 * 5).rotateLeft 7 * 9
  let t := s1 ^^^ s0
  (out, s0.rotateLeft 24 ^^^ t ^^^ (t <<< 16), t.rotateLeft 37)

/-- One draw of a thread. -/
def Thread.draw (t : Thread) : Word64 × Thread :=
  let (o, a, b) := rngNext t.r.s0 t.r.s1
  (o, { t with r := { t.r with s0 := a, s1 := b } })

/-- A jump with coefficient bits J, `n` bits from the lowest (04 R89): state and accumulated state. -/
def jumpGo : Nat → Nat → (Word64 × Word64) → (Word64 × Word64) → Word64 × Word64
  | 0, _, _, acc => acc
  | n + 1, j, st, acc =>
    let acc := if j % 2 = 1 then (acc.1 ^^^ st.1, acc.2 ^^^ st.2) else acc
    let (_, a, b) := rngNext st.1 st.2
    jumpGo n (j / 2) (a, b) acc

def jumpBy (j : Nat) (st : Word64 × Word64) : Word64 × Word64 := jumpGo 128 j st (0, 0)

/-! The jump polynomials x^(2^k) mod P. P is the characteristic polynomial of the linear transition of R88; a polynomial's bit i is
the coefficient of x^i, and P is held without its leading x^128. P is determined by R88, and the jump of R89 for m = 2^64 checks it
(DEDUCED, assumption 14). -/

def charPoly : Nat := 0x95b8f76579aa001 + 0x0008828e513b43d5 * 18446744073709551616

/-- Multiplication of polynomials over GF(2), reduced by P: `n` bits of `b` from the highest. -/
def polyMulGo (a b : Nat) : Nat → Nat → Nat
  | 0, acc => acc
  | n + 1, acc =>
    let d := acc * 2
    let d := if 2 ^ 128 ≤ d then (d - 2 ^ 128) ^^^ charPoly else d
    polyMulGo a b n (if b / 2 ^ n % 2 = 1 then d ^^^ a else d)

def polySquareTimes : Nat → Nat → Nat
  | 0, a => a
  | n + 1, a => polySquareTimes n (polyMulGo a a 128 0)

/-- x^(2^k) mod P. -/
def jumpPoly (k : Nat) : Nat := polySquareTimes k 2

/-- A jump by c · 2^k outputs, one jump for each set bit of c in ascending order (04 R89). -/
def jumpScaled (c k n : Nat) (st : Word64 × Word64) : Word64 × Word64 :=
  (List.range n).foldl (fun st i => if c / 2 ^ i % 2 = 1 then jumpBy (jumpPoly (k + i)) st else st) st

/-- Seeding at the first task start in a region (04 R90); `n` is the thread's global number. -/
def seedState (seed n : Nat) : Word64 × Word64 :=
  let s0 := BitVec.ofNat 64 seed
  let s1 := BitVec.ofNat 64 (seed / 18446744073709551616)
  jumpScaled n 64 27 (if s0 = 0 ∧ s1 = 0 then (1, 0) else (s0, s1))

/-! Instructions (04 R91) -/

def execRng64 (o : CR) (s : State) : Host.Outcome State Fault Refusal :=
  s.run (.rng64 o) (fun s =>
    let (v, t) := s.me.draw
    ((s.modMe (fun _ => t)).putX o.rd v).retire o.s)

def execRngf (o : CR) (s : State) : Host.Outcome State Fault Refusal :=
  s.run (.rngf o) (fun s =>
    let (v, t) := s.me.draw
    let c := (roundMag fp32 false ⟨v.toNat / 1099511627776, -24, false⟩).1
    ((s.modMe (fun _ => t)).modMe (·.putF o.rd (BitVec.ofNat 32 c))).retire o.s)

/-- Eight draws, the first in the lowest bytes. -/
def drawVec (t : Thread) : VWord × Thread :=
  let r := (List.range 8).foldl (fun (a : Nat × Thread) i =>
    let (v, t) := a.2.draw
    (a.1 + v.toNat * 2 ^ (64 * i), t)) (0, t)
  (BitVec.ofNat 512 r.1, r.2)

def execRngv (o : CR) (s : State) : Host.Outcome State Fault Refusal :=
  s.run (.rngv o) (fun s =>
    let (v, t) := drawVec s.me
    ((s.modMe (fun _ => t)).putV o.rd v).retire o.s)

def execRngjump (o : CR) (s : State) : Host.Outcome State Fault Refusal :=
  s.run (.rngjump o) (fun s =>
    let st := jumpScaled (s.getXn o.rs1 % 4294967296) 32 32 (s.me.r.s0, s.me.r.s1)
    (s.modMe (fun t => t.modRegs (fun r => { r with s0 := st.1, s1 := st.2 }))).retire o.s)

end Sys2Proof.Machine
end

