-- ==== Sys2Proof/Machine/Loops.lean ====
section
/-!
DEFINITION. Loops, repeats, time and sections (04 R80 to R87, R93 to R95, 17 R367 to R369).
-/
namespace Sys2Proof.Machine

/-! The hardware loop (04 R81) -/

def doLpset (sb : Bool) (len rs1 : Nat) (s : State) : State :=
  let off := pcOff s.me.r.pc
  let n := s.getX rs1
  if 0x1FFFC < off + 4 * len then s.takeTrap 0x01 0 (s.prefixOf s.focus.tile + off + 4 * len)
  else if s.me.r.loop.lpa then s.illegal
  else if n = 0 then s.finish { s.me with r := { s.me.r with pc := pcWith s.me.r.pc (off + 4 + 4 * len) } } sb
  else
    let l : Loop := { s.me.r.loop with count := n, start := off + 4, last := off + 4 * len, lpa := true }
    s.finish { s.me with r := { s.me.r with pc := pcWith s.me.r.pc (off + 4), loop := l } } sb

def execLpset (sb : Bool) (len rs1 : Nat) (s : State) : Host.Outcome State Fault Refusal :=
  s.run (.lpset sb len rs1) (doLpset sb len rs1)

/-! The repeat prefix (04 R84 to R87) -/

/-- Do the rd, rs1 and rs2 fields of an instruction's word name an x, f or v register that `rep` may step (04 R85)? The d field of a matrix
instruction may not be stepped (06 R149); the rd of `mprog`, which enters no matrix queue (06 R130, R144), names an x register and may be (DEDUCED:
R149 does not say whether it means `mprog` too). -/
def regFields (i : Instr) : Bool × Bool × Bool :=
  match i with
  | .mmov o => (!o.kd, !o.k1, false)
  | .madd o | .msub o | .mand o | .mor o | .mxor o | .msll o | .msrl o | .msra o | .mmin o | .mmax o | .mminu o
  | .mmaxu o | .mfadd o | .mfmul o | .mfmax o => (!o.kd, !o.k1, !o.k2)
  | .send _ | .sendv _ | .qbind _ | .spawnt _ | .bwait _ | .cwaitge _ => (false, true, true)
  | .mvc _ | .qwait _ | .barrive _ | .cqtry _ => (true, true, false)
  | .qcount _ | .qpopv _ | .tstamp _ | .taskinfo _ | .qwroot _ | .qwheld _ | .rng64 _ | .rngf _ | .rngv _ | .slice _
  | .errinfo _ | .cqtryProbe _ | .cqctlFree _ | .mprog _ => (true, false, false)
  | .pwrhint _ | .spawn _ | .jdec _ | .qwdone _ | .rngjump _ | .maccRow _ | .maccSt _ | .maccStp _ | .maccLdp _
  | .cqpush _ => (false, true, false)
  | .ctest _ => (true, true, true)
  | .vadd _ | .vsub _ | .vmul _ | .vfma _ | .vmin _ | .vmax _ | .vbit _ | .vshift _ | .vsel _ | .vgath _ | .vscat _ => (true, true, true)
  | .vld o | .vst o => (true, true, o.f2 != 0)
  | .vcmp _ => (false, true, true)
  | .vneg _ | .vabs _ | .vmov _ | .vsplatx _ | .vsplatf _ | .vextx _ | .vrcp _ | .vrsqrt _ | .vexp2 _ | .vlog2 _ | .vtanh _
  | .vsigm _ | .vredsum _ | .vredmax _ | .vredmin _ | .vcvt _ _ | .vcvtsr _ _ | .vperm _ => (true, true, false)
  | .viota _ | .vquery _ | .pcount _ => (true, false, false)
  | .pwhilelt _ => (false, true, false)
  | .mmaE4e4 _ | .mmaE4e5 _ | .mmaE5e4 _ | .mmaE5e5 _ | .mmaE4f6 _ | .mmaE4f4 _ | .mmaF4f4 _ | .mmaBf _ | .mmaI8 _ | .mconv _ =>
      (false, true, true)
  | .load _ _ _ _ | .lr _ _ _ _ _ => (true, true, false)
  | .store _ _ _ _ => (false, true, true)
  | .amo _ _ _ _ _ _ _ | .sc _ _ _ _ _ _ => (true, true, true)
  | .integerOp op _ _ _ _ =>
      (true, (intRow op).kind != .u, (intRow op).kind == .r)
  | .fpOp op _ _ _ _ _ => (true, true, match (fpRow op).kind with | .r2 => false | .r2f => false | _ => true)
  | _ => (false, false, false)

/-- Words that `rep` may not repeat (04 R85); no gathering word may be repeated (09 R221, R235). -/
def repForbidden (w : Nat) (i : Instr) : Bool :=
  w % 128 == 0x73 ||
  match i with
  | .controlTransfer _ _ _ _ _ | .fenceI _ _ _ | .rep _ _ _ _ | .lpset _ _ _ | .tend _ | .qwret _ | .npenter _ | .npexit _
  | .gjoin _ | .gleave _ | .grejoin _ | .gsync _ | .ginfo _ | .slotwait _ | .lcommit _ | .ldrop _ => true
  | _ => false

/-- The j-th stepped word of a repeat (04 R86). `mask` is rd · 4 + rs1 · 2 + rs2. -/
def steppedWord (w mask step j : Nat) : Nat :=
  w + j * 2 ^ step * (mask / 4 % 2 * 128 + mask / 2 % 2 * 32768 + mask % 2 * 1048576)

/-- The decode check of a word on a thread (02 R31). -/
def wordLegal (h w : Nat) : Bool :=
  match decode w with
  | .ok i => classAllows h i
  | .reject _ => false

/-- The check of the pair (04 R85): none where it is legal, else the word that the report names. -/
def repCheck (h w count mask step : Nat) : Option Nat :=
  match decode w with
  | .reject _ => some w
  | .ok i =>
    let (d, a, b) := regFields i
    let sel (k : Nat) : Bool := mask / 2 ^ k % 2 == 1
    let fits (lo : Nat) : Bool := decide (w / 2 ^ lo % 32 + (count - 1) * 2 ^ step ≤ 31)
    if !classAllows h i || repForbidden w i then some w
    else if (sel 2 && !(d && fits 7)) || (sel 1 && !(a && fits 15)) || (sel 0 && !(b && fits 20)) then some w
    else (((List.range count).map (steppedWord w mask step)).find? (fun v => !wordLegal h v))

/-- The S bit of a word, where its format has one. -/
def hasS (w : Nat) : Bool := (w % 128 == 0x0B || w % 128 == 0x2B || w % 128 == 0x5B || w % 128 == 0x7B) && w / 2147483648 % 2 == 1

/-- The word after a `rep`: from the forwarded stream, or fetched; none while a follower's has not arrived. -/
def State.wordAfter (s : State) : Option (Option Nat) :=
  let g := s.focus.tile
  let h := s.focus.thread
  if h = 0 ∧ s.me.run.gather.role == .attached then (s.me.run.gather.buf[1]?).map (fun x => some x.word)
  else
    let off := pcOff s.me.r.pc + 4
    if 131072 ≤ off then some none else some (some (fetchWord s g h off))

/-- The leader passes on the pair, once (09 R224). -/
def State.forwardPair (s : State) (w : Nat) : State :=
  let t := s.me
  if s.focus.thread = 0 ∧ t.run.fwdDone = false ∧ t.run.gather.role == .leader then
    let off := pcOff t.r.pc
    let s := s.forward s.focus.tile ⟨s.focus.word, off, off + 4⟩
    (s.forward s.focus.tile ⟨w, off + 4, pcOff (t.passEdge (off + 4)).r.pc⟩).modMe (fun t => t.modRun (fun r => { r with fwdDone := true }))
  else s

/-- A repeat completes without a further repetition (04 R87). -/
def Thread.repDone (t : Thread) : Thread :=
  { t with r := { t.r with pc := pcWith t.r.pc (pcOff t.r.pc + 8), loop := { t.r.loop with repa := false, repdone := 0 } } }

def doRep (sb : Bool) (count mask step : Nat) (s : State) : State :=
  let g := s.focus.tile
  let h := s.focus.thread
  let t := s.me
  let l := t.r.loop
  let trap (w : Nat) : State := { s with focus := { s.focus with word := w } }.illegal
  if t.run.gather.role == .leader ∧ h = 0 ∧ t.run.fwdDone = false ∧
      (s.attachedOf g).any (fun m => decide (7 ≤ (s.thread m 0).run.gather.buf.length)) then s
  -- the word after it is fetched like any other (16 R351)
  else if !s.isFollower ∧ pcOff t.r.pc + 4 < 131072 ∧ poisonedAt s g (pcOff t.r.pc + 4) 4 then
    { s with focus := { s.focus with word := 0 } }.takeTrap 0x21 0 (s.prefixOf g + (pcOff t.r.pc + 4) / 8 * 8)
  else match s.wordAfter with
  | none => s
  | some none => { s with focus := { s.focus with word := 0 } }.takeTrap 0x01 0 (t.r.pc.toNat + 4)
  | some (some w) =>
    if l.lpa ∧ pcOff t.r.pc = l.last then trap w
    else match repCheck h w count mask step with
    | some bad => trap bad
    | none =>
      let j := if l.repa then l.repdone else 0
      if sb ∧ j = 0 ∧ !s.switched then s.switchFirst
      else
        let s := s.forwardPair w
        if count ≤ j then
          s.modMe (fun t => ((t.repDone).modRun (fun r => { r with fwdDone := false })).followed 2)
        else s.modMe (fun t => { r := { t.r with loop := { t.r.loop with repa := true, repdone := j } },
                                 run := { t.run with rep := some ⟨steppedWord w mask step j, steppedWord 0 mask step 1, count, hasS w⟩ } })

def execRep (sb : Bool) (count mask step : Nat) (s : State) : Host.Outcome State Fault Refusal :=
  s.run (.rep sb count mask step) (doRep sb count mask step)

/-! Time (04 R93, R94) -/

/-- Has every earlier instruction of the thread completed: no access with a result is outstanding? -/
def Thread.readsDone (t : Thread) : Bool := t.run.outs.all (fun o => o.dst.silent)

def execTstamp (o : CR) (s : State) : Host.Outcome State Fault Refusal :=
  s.run (.tstamp o) (fun s =>
    if s.me.readsDone then (s.putXn o.rd (s.guestTime (s.regionOf s.focus.tile))).retire o.s else s.waitHere)

/-- The boundary that a `slotwait` issued now waits for. -/
def slotBoundary (now k : Nat) : Nat := (now / 2 ^ k + 1) * 2 ^ k

def doSlotwait (o : CR) (s : State) : State :=
  let k := s.getXn o.rs1
  if k < 6 ∨ 20 < k then s.illegal
  else if s.me.run.phase = 1 then
    if s.me.run.phaseVal ≤ s.now then s.retire o.s else s.waitHere
  else (s.modMe (fun t => t.modRun (fun r => { r with phase := 1, phaseVal := slotBoundary s.now k }))).waitHere

def execSlotwait (o : CR) (s : State) : Host.Outcome State Fault Refusal := s.run (.slotwait o) (doSlotwait o)

/-- The instruction of the thread in focus, when it is one that `p` picks; else nothing happens. -/
def State.whenAt (s : State) (p : Instr → Option (State → State)) : State :=
  match issue s with
  | .wait _ => s
  | .go s' i => match p i with
    | some f => f s'
    | none => s

/-- SLOTWAIT_BOUNDARY: a stalled `slotwait` whose boundary has come completes. -/
def execSlotwaitBoundary (s : State) : Host.Outcome State Fault Refusal :=
  .next (if s.me.run.phase = 1 ∧ s.me.run.phaseVal ≤ s.now then
      s.whenAt (fun i => match i with | .slotwait o => some (doSlotwait o) | _ => none) else s)

/-! Error collection (04 R95) -/

/-- The thread whose copy request a unit of a tile's engine belongs to. -/
def Engines.unitThread (e : Engines) (unit : Nat) : Option Nat :=
  match e.units.find? (fun u => u.id == unit) with
  | some u => (e.copies.find? (fun c => c.serial == u.serial)).map (·.thread)
  | none => none

/-- Errors that the tile's own router has found for messages of the thread, or for units of its copies, and that wait to be recorded. -/
def State.ownErrors (s : State) (g h : Nat) : Bool :=
  (s.home g).inbox.any (fun m => m.kind == 8 && m.srcHome == g && (m.sthr == h ||
    (m.sthr == 3 && (match m.body with | .error _ _ id _ _ _ => (s.tile g).e.unitThread id == some h | _ => false))))

/-- Copy requests of the thread that have not sent all their units, or a record to window 8 that has not left. -/
def State.copiesUnsent (s : State) (g h : Nat) : Bool :=
  (s.tile g).e.copies.any (fun c => c.thread == h && (c.st == .accepted || c.st == .issuing)) ||
  (s.tile g).e.units.any (fun u => u.task && !u.sent && (s.tile g).e.unitThread u.id == some h)

/-- Messages of the thread, or of the units of its copies, that its router has not taken. -/
def State.notInjected (s : State) (g h : Nat) : Bool :=
  (s.tile g).e.unsent.any (fun u => u.msg.sthr == h || (u.msg.sthr == 3 && (s.tile g).e.unitThread (refusedInfo u.msg).1 == some h))

def execErrinfo (o : CR) (s : State) : Host.Outcome State Fault Refusal :=
  s.run (.errinfo o) (fun s =>
    if s.ownErrors s.focus.tile s.focus.thread || s.copiesUnsent s.focus.tile s.focus.thread || s.notInjected s.focus.tile s.focus.thread
    then s.waitHere
    else
      let v := errWordOf s.me.r.errword
      ((s.modMe (fun t => t.modRegs (fun r => { r with errword := {} }))).putXn o.rd v).retire o.s)

/-! Non-pre-emptible sections (17 R367 to R369) -/

def doNpenter (o : CR) (s : State) : State :=
  if (s.region (s.regionOf s.focus.tile)).npLimit = 0 then s.retire o.s
  else if s.me.run.npd = 15 then s.illegal
  else (s.modMe (fun t => t.modRun (fun r =>
    { r with npd := r.npd + 1, secTime := if r.npd = 0 then 0 else r.secTime, npOver := r.npd != 0 && r.npOver }))).retire o.s

def execNpenter (o : CR) (s : State) : Host.Outcome State Fault Refusal := s.run (.npenter o) (doNpenter o)

def doNpexit (o : CR) (s : State) : State :=
  let d := s.me.run.npd - 1
  -- at depth 0 the stops that the section deferred are due
  (s.modMe (fun t => t.modRun (fun r => { r with npd := d }))).retire o.s

def execNpexit (o : CR) (s : State) : Host.Outcome State Fault Refusal := s.run (.npexit o) (doNpexit o)

def execSlice (o : CR) (s : State) : Host.Outcome State Fault Refusal :=
  s.run (.slice o) (fun s =>
    let q := s.region (s.regionOf s.focus.tile)
    (s.putXn o.rd (if q.sliceLen = 0 then 18446744073709551615 else q.grant)).retire o.s)

end Sys2Proof.Machine
end

