-- ==== Sys2Proof/Machine/FloatFn.lean ====
section
/-!
DEFINITION. The special functions (03 R69): the correctly rounded value of the exact mathematical function.

Each function is computed in fixed point with 640 fraction bits, of which the lowest 64 are dropped, and marked sticky: for
an argument that is no special case the exact value is irrational, so it lies strictly between two such numbers. The
rounding is that of the exact value unless the exact value lies within 2^-570 of a rounding boundary (DEDUCED, assumption 11).
-/
namespace Sys2Proof.Machine

def fixBits : Nat := 640
def fixOne : Nat := 2 ^ fixBits

/-- Σ z^(2k+1)/(2k+1): `p` is z^(2k+1), `zz` is z². -/
def atanhGo (zz : Nat) : Nat → Nat → Nat → Nat → Nat
  | 0, _, _, acc => acc
  | n + 1, k, p, acc => atanhGo zz n (k + 2) (p * zz / fixOne) (acc + p / k)

/-- The natural logarithm of num / den, where 1 ≤ num / den ≤ 2. -/
def lnFix (num den : Nat) : Nat :=
  let z := (num - den) * fixOne / (num + den)
  2 * atanhGo (z * z / fixOne) 260 1 z 0

def ln2Fix : Nat := lnFix 2 1

/-- Σ x^k / k!, x below 1. -/
def expGo (x : Nat) : Nat → Nat → Nat → Nat → Nat
  | 0, _, _, acc => acc
  | n + 1, k, t, acc => let t' := t * x / fixOne / k; expGo x n (k + 1) t' (acc + t')

/-- e^x for 0 ≤ x < 1. -/
def expFix (x : Nat) : Nat := expGo x 160 1 fixOne fixOne

/-- e^(−x) for a fixed-point x ≥ 0. -/
def expNegFix (x : Nat) : Nat :=
  let n := x / ln2Fix + 1
  let r := n * ln2Fix - x
  expFix r / 2 ^ n

/-- A fixed-point number as a magnitude, its 64 lowest bits dropped. -/
def magFix (v : Nat) (e : Int) : Mag := ⟨v / 2 ^ 64, e - (fixBits : Int) + 64, true⟩

/-- |x| in fixed point (a value of 16- and 32-bit formats has at most 149 fraction bits), at most `cap`. -/
def absFix (m : Nat) (e : Int) (cap : Nat) : Nat :=
  if (10 : Int) < e then (if m = 0 then 0 else cap * fixOne)
  else min (m * 2 ^ (e + (fixBits : Int)).toNat) (cap * fixOne)

def fvRcp (x : FVal) : Raw1 :=
  match x with
  | .nan _ q => .nan (Flags.invalidIf (!q))
  | .inf n => .val n ⟨0, 0, false⟩
  | .fin n m e => if m = 0 then .inf n { ovf := true } else .val n (magDiv 1 m (-e))

def fvRsqrt (x : FVal) : Raw1 :=
  match x with
  | .nan _ q => .nan (Flags.invalidIf (!q))
  | .inf n => if n then .nan .invalid else .val false ⟨0, 0, false⟩
  | .fin n m e =>
      if m = 0 then .inf n { ovf := true }
      else if n then .nan .invalid
      else
        -- 1/√(m · 2^e) with e made even: √(2^(2·200) / m') · 2^(−e'/2 − 200)
        let (m', e') : Nat × Int := if e % 2 = 0 then (m, e) else (2 * m, e - 1)
        let num := 2 ^ 400
        let r := isqrt (num / m')
        .val false ⟨r, -(e' / 2) - 200, r * r * m' != num⟩

def fvExp2 (x : FVal) : Raw1 :=
  match x with
  | .nan _ q => .nan (Flags.invalidIf (!q))
  | .inf n => if n then .val false ⟨0, 0, false⟩ else .inf false .none
  | .fin n m e =>
      let a := absFix m e 5000
      let v : Int := if n then -(a : Int) else (a : Int)
      let i := v / (fixOne : Int)
      let f := (v % (fixOne : Int)).toNat
      if f = 0 then .val false ⟨1, i, false⟩ else .val false (magFix (expFix (f * ln2Fix / fixOne)) i)

def fvLog2 (x : FVal) : Raw1 :=
  match x with
  | .nan _ q => .nan (Flags.invalidIf (!q))
  | .inf n => if n then .nan .invalid else .inf false .none
  | .fin n m e =>
      if m = 0 then .inf true { ovf := true }
      else if n then .nan .invalid
      else
        let l := Nat.log2 m
        let i : Int := e + (l : Int)
        if m = 2 ^ l then .val (decide (i < 0)) ⟨i.natAbs, 0, false⟩
        else
          let v : Int := i * (fixOne : Int) + ((lnFix m (2 ^ l) * fixOne / ln2Fix : Nat) : Int)
          .val (decide (v < 0)) (magFix v.natAbs 0)

def fvTanh (x : FVal) : Raw1 :=
  match x with
  | .nan _ q => .nan (Flags.invalidIf (!q))
  | .inf n => .val n ⟨1, 0, false⟩
  | .fin n m e =>
      if m = 0 then .val n ⟨0, 0, false⟩
      else
        let a := absFix m e 128
        if a = 128 * fixOne then .val n (magFix (fixOne - 1) 0)
        else let t := expNegFix (2 * a); .val n (magFix ((fixOne - t) * fixOne / (fixOne + t)) 0)

def fvSigm (x : FVal) : Raw1 :=
  match x with
  | .nan _ q => .nan (Flags.invalidIf (!q))
  | .inf n => if n then .val false ⟨0, 0, false⟩ else .val false ⟨1, 0, false⟩
  | .fin n m e =>
      if m = 0 then .val false ⟨1, -1, false⟩
      else
        let a := absFix m e 400
        if a = 400 * fixOne then .val false (if n then magFix 0 0 else magFix (fixOne - 1) 0)
        else
          let t := expNegFix a
          .val false (magFix ((if n then t else fixOne) * fixOne / (fixOne + t)) 0)

end Sys2Proof.Machine
end

