-- ==== Sys2Proof/Machine/Wake.lean ====
section
/-!
DEFINITION. Waking the wide units (19 R402 to R404): an instruction that needs a cold unit is held until the cluster's step has room.
-/
namespace Sys2Proof.Machine

/-- Does a running thread of the tile wait for the matrix unit's wake with the vector unit's already admitted, which is kept for it (19 R403)? -/
def State.vecKept (s : State) (g : Nat) : Bool :=
  [0, 1].any (fun h => (s.thread g h).run.ts == .running && ((s.tile g).c.wakeHold.look h (false, false)).1)

/-- Do entries of the matrix unit's queue execute: it has some, and neither a stop of t0 nor a trap that is due holds them (06 R146)? Entries that
go on after a stop use the unit without a wake: R402 has a wake made by an instruction that needs the unit, at its issue (DEDUCED, assumption
124). -/
def State.matBusy (s : State) (g : Nat) : Bool :=
  !(s.tile g).e.mq.isEmpty && (s.thread g 0).run.ts != .stopped && (s.thread g 0).run.due.isEmpty

/-- Is the unit warm? `mat` names the matrix unit, else the vector unit. It is cold 1,024 cycles after it last executed something, and not
while an instruction that has woken it waits for its other wake (19 R402, R403). -/
def State.warm (s : State) (g : Nat) (mat : Bool) : Bool :=
  let c := (s.tile g).c
  if mat then c.matWarm && (decide (s.cyclesOf g < c.matUsed + 1024) || s.matBusy g)
  else c.vecWarm && (decide (s.cyclesOf g < c.vecUsed + 1024) || s.vecKept g)

/-- The unit is in use from now on. -/
def State.useUnit (s : State) (g : Nat) (mat : Bool) : State :=
  let n := s.cyclesOf g
  s.modTile g (fun t => t.modCtl (fun c => if mat then { c with matWarm := true, matUsed := n } else { c with vecWarm := true, vecUsed := n }))

/-- The wakes the current 200 ns step has admitted (19 R403). -/
def State.stepWakes (s : State) (c : Nat) : Nat :=
  if (s.cluster c).stepStart = s.now / 200 then (s.cluster c).wakes else 0

/-- The wakes that the stalled instructions of the cluster older than thread `k` still need while their threads run, by tile and unit. -/
def State.wakesAhead (s : State) (c k : Nat) : Nat :=
  let need (j : Nat) : List (Nat × Bool) :=
    let g := tileIn c (j / 2)
    if (s.thread g (j % 2)).run.ts != .running then []
    else (if s.warm g false then [] else [(g, false)]) ++
      (if ((s.tile g).c.wakeHold.look (j % 2) (false, false)).2 && !s.warm g true then [(g, true)] else [])
  ((((s.cluster c).stallQ.takeWhile (· != k)).map need).flatten.eraseDups).length

/-- Admits the wake of a unit for a thread, if it needs one and the step has room for it beside the older stalled ones. -/
def State.admitWake (s : State) (g h : Nat) (mat : Bool) : Option State :=
  let c := clusterOf g
  if s.warm g mat then some s
  else if (s.cluster c).stepN = 0 ∨ s.stepWakes c + s.wakesAhead c (threadIndex g h) < (s.cluster c).stepN then
    let n := s.stepWakes c + 1
    some ((s.modCluster c (fun q => { q with wakes := n, stepStart := s.now / 200 })).useUnit g mat)
  else none

/-- Does the thread's instruction wait for a wake? -/
def State.stalls (s : State) (g h : Nat) : Bool := ((s.tile g).c.wakeHold.find h).isSome

/-- The stall of a wake: it queues, and counts once for its instruction; `vec`: the vector unit's wake is the instruction's own, `mat`: it needs
the matrix unit. A unit that is cold by then stays cold. -/
def State.stallWake (s : State) (g h : Nat) (vec mat : Bool) : State :=
  let c := clusterOf g
  let k := threadIndex g h
  let vw := s.warm g false
  let mw := s.warm g true
  let s := if s.stalls g h then s else s.modCluster c (fun q => { q with stalls := min (q.stalls + 1) 4294967295, stallQ := q.stallQ ++ [k] })
  s.modTile g (fun t => t.modCtl (fun c => { c with vecWarm := vw, matWarm := mw, wakeHold := c.wakeHold.put h (vec, mat) }))

/-- The instruction issues, or its thread ends: its stall is over. -/
def State.endStall (s : State) (g h : Nat) : State :=
  if s.stalls g h then
    (s.modCluster (clusterOf g) (fun q => { q with stallQ := q.stallQ.filter (· != threadIndex g h) })).modTile g
      (fun t => t.modCtl (fun c => { c with wakeHold := c.wakeHold.del h }))
  else s

/-- The wakes of an announced or needed set of units, the vector unit's first; `false` while one is stalled. A vector unit that was kept from
going cold for the other wake counts as woken with it. -/
def State.wakeUnits (s : State) (g h : Nat) (vec mat : Bool) : State × Bool :=
  let kept := ((s.tile g).c.wakeHold.look h (false, false)).1
  match if vec then s.admitWake g h false else some s with
  | none => (s.stallWake g h false mat, false)
  | some s1 =>
    let own := vec && (kept || !s.warm g false)
    match if mat then s1.admitWake g h true else some s1 with
    | none => (s1.stallWake g h own mat, false)
    | some s2 => let s3 := s2.endStall g h; (if own then s3.useUnit g false else s3, true)

/-- An instruction that needs the units: it goes on once they are awake, and marks them used. -/
def State.withUnits (s : State) (mat : Bool) (go : State → State) : State :=
  let g := s.focus.tile
  let (s, ok) := s.wakeUnits g s.focus.thread true mat
  if ok then
    let s := s.useUnit g false
    go (if mat then s.useUnit g true else s)
  else s.waitHere

/-- `pwrhint` (19 R404). -/
def execPwrhint (o : CR) (s : State) : Host.Outcome State Fault Refusal :=
  s.run (.pwrhint o) (fun s =>
    let n := s.getXn o.rs1
    let (s, ok) := s.wakeUnits s.focus.tile s.focus.thread (decide (1 ≤ n)) (decide (33 ≤ n))
    if ok then s.retire o.s else s.waitHere)

/-- UNIT_COLD: a unit that is cold by its last use (19 R402, `State.warm`) is marked so. -/
def execUnitCold (matrix : Bool) (s : State) : Host.Outcome State Fault Refusal :=
  let g := s.focus.tile
  if s.warm g matrix then .next s
  else .next (s.modMyTile (fun t => t.modCtl (fun c => if matrix then { c with matWarm := false } else { c with vecWarm := false })))

end Sys2Proof.Machine
end

