-- ==== Sys2Proof/Machine/Vector.lean ====
section
/-!
DEFINITION. Vector instructions on a tile's own share (05 R97 to R115, R117, R119 to R121, R127, R129): element arithmetic, shifts,
compares, selections, splats, special functions, conversions and predicate logic.

A vector is a number of 512 bits here; element i of b bytes is its digit i in base 256^b.
-/
namespace Sys2Proof.Machine

/-- Element size in bytes (02 R34). -/
def etBytes (et : Nat) : Nat :=
  match et with
  | 0 | 7 => 1
  | 1 | 4 | 5 => 2
  | 3 => 8
  | _ => 4

/-- Format of a floating-point element type. -/
def etFmt (et : Nat) : Fmt := if et = 4 then fp16 else if et = 5 then bf16 else if et = 7 then fpE4m3 else fp32

def elem (v b i : Nat) : Nat := v / 256 ^ (b * i) % 256 ^ b

/-- Is element `i` of `b` bytes active under a predicate (01 R9)? -/
def active (p b i : Nat) : Bool := p.testBit (b * i)

/-- The vector with element i as `f` gives it where it is active, and as it was elsewhere. -/
def elementwise (b p old : Nat) (f : Nat → Nat × Flags) : Nat × Flags :=
  (List.range (64 / b)).foldr (fun i a =>
    if active p b i then let (v, g) := f i; (a.1 * 256 ^ b + v % 256 ^ b, g.or a.2)
    else (a.1 * 256 ^ b + elem old b i, a.2)) (0, Flags.none)

/-- A predicate with the b bits of each active element as `f` gives it. -/
def predicatewise (b p old : Nat) (f : Nat → Bool) : Nat :=
  (List.range (64 / b)).foldr (fun i a =>
    a * 2 ^ b + (if active p b i then (if f i then 2 ^ b - 1 else 0) else old / 2 ^ (b * i) % 2 ^ b)) 0

/-- A number of `w` bits as two's complement. -/
def signedBits (w v : Nat) : Int := if v < 2 ^ (w - 1) then (v : Int) else (v : Int) - (2 ^ w : Nat)
def wrapBits (w : Nat) (v : Int) : Nat := (v % (2 ^ w : Nat)).toNat

/-- The six operations of c4 0 to 5 (05 R107). -/
inductive VOp where
  | add | sub | mul | fma | min | max
  deriving DecidableEq, Repr

def vOpInt (op : VOp) (w d a b : Nat) : Nat :=
  let m := 2 ^ w
  match op with
  | .add => (a + b) % m
  | .sub => (a + m - b) % m
  | .mul => a * b % m
  | .fma => (d + a * b) % m
  | .min => if signedBits w b < signedBits w a then b else a
  | .max => if signedBits w a < signedBits w b then b else a

def vOpFp (op : VOp) (f : Fmt) (d a b : Nat) : Nat × Flags :=
  let x := fdecode f a
  let y := fdecode f b
  match op with
  | .add => deliver f (fvAdd .rne x y)
  | .sub => deliver f (fvAdd .rne x (fvNeg y))
  | .mul => deliver f (fvMul x y)
  | .fma => deliver f (fvFma .rne x y (fdecode f d))
  | .min => fvMinMax f false a b
  | .max => fvMinMax f true a b

def vOp (op : VOp) (et d a b : Nat) : Nat × Flags :=
  if et ≤ 3 then (vOpInt op (8 * etBytes et) d a b, Flags.none) else vOpFp op (etFmt et) d a b

/-! The common course of a vector instruction -/

/-- Contents of the registers of the tile in focus, as numbers. -/
def State.vN (s : State) (n : Nat) : Nat := (s.getV n).toNat
def State.pN (s : State) (n : Nat) : Nat := (s.myTile.r.getP n).toNat
def State.putVN (s : State) (n v : Nat) : State := s.putV n (BitVec.ofNat 512 v)
def State.putPN (s : State) (n v : Nat) : State := s.modMyTile (fun t => t.modRegs (·.setP n (BitVec.ofNat 64 v)))

/-- The class check, the wake of the vector unit, and the body. -/
def State.vector (s : State) (i : Instr) (body : State → State) : Host.Outcome State Fault Refusal :=
  s.run i (fun s => s.withUnits false body)

/-- A vector result with its flags; the instruction completes. -/
def State.vDone (s : State) (sb : Bool) (vd : Nat) (r : Nat × Flags) : State :=
  ((s.putVN vd r.1).raiseFx s.focus.tile r.2).retire sb

def doVOp (op : VOp) (o : CV) (s : State) : State :=
  let b := etBytes o.et
  let a := s.vN o.f1
  let c := s.vN o.f2
  let d := s.vN o.fd
  s.vDone o.s o.fd (elementwise b (s.pN o.pg) d (fun i => vOp op o.et (elem d b i) (elem a b i) (elem c b i)))

def execVadd (o : CV) (s : State) : Host.Outcome State Fault Refusal := s.vector (.vadd o) (doVOp .add o)
def execVsub (o : CV) (s : State) : Host.Outcome State Fault Refusal := s.vector (.vsub o) (doVOp .sub o)
def execVmul (o : CV) (s : State) : Host.Outcome State Fault Refusal := s.vector (.vmul o) (doVOp .mul o)
def execVfma (o : CV) (s : State) : Host.Outcome State Fault Refusal := s.vector (.vfma o) (doVOp .fma o)
def execVmin (o : CV) (s : State) : Host.Outcome State Fault Refusal := s.vector (.vmin o) (doVOp .min o)
def execVmax (o : CV) (s : State) : Host.Outcome State Fault Refusal := s.vector (.vmax o) (doVOp .max o)

/-- `vbit` on one byte (05 R109). -/
def vbitByte (et a b : Nat) : Nat :=
  match et with
  | 0 => a &&& b
  | 1 => a ||| b
  | 2 => a ^^^ b
  | _ => a &&& (255 - b)

def doVbit (o : CV) (s : State) : State :=
  let a := s.vN o.f1
  let b := s.vN o.f2
  s.vDone o.s o.fd (elementwise 1 (s.pN o.pg) (s.vN o.fd) (fun i => (vbitByte o.et (elem a 1 i) (elem b 1 i), Flags.none)))

def execVbit (o : CV) (s : State) : Host.Outcome State Fault Refusal := s.vector (.vbit o) (doVbit o)

/-- Kinds of shift: bytes of an element and the shift (05 R110). -/
inductive VShiftKind where
  | sll | srl | sra
  deriving DecidableEq, Repr

def vshiftKind (et : Nat) : Nat × VShiftKind :=
  match et with
  | 0 => (1, .sll) | 1 => (2, .sll) | 2 => (4, .sll) | 3 => (4, .srl)
  | 4 => (1, .sra) | 5 => (2, .sra) | 6 => (4, .sra) | _ => (2, .srl)

def vshiftElem (k : VShiftKind) (w a c : Nat) : Nat :=
  let n := c % w
  match k with
  | .sll => a * 2 ^ n % 2 ^ w
  | .srl => a / 2 ^ n
  | .sra => wrapBits w (signedBits w a / (2 ^ n : Nat))

def doVshift (o : CV) (s : State) : State :=
  let (b, k) := vshiftKind o.et
  let a := s.vN o.f1
  let c := s.vN o.f2
  s.vDone o.s o.fd (elementwise b (s.pN o.pg) (s.vN o.fd) (fun i => (vshiftElem k (8 * b) (elem a b i) (elem c b i), Flags.none)))

def execVshift (o : CV) (s : State) : Host.Outcome State Fault Refusal := s.vector (.vshift o) (doVshift o)

/-- A comparison (03 R68, 05 R111): relation 0 eq, 1 ne, 2 lt, 3 le. -/
def vcmpElem (et rel a b : Nat) : Bool × Flags :=
  if et ≤ 3 then
    let x := signedBits (8 * etBytes et) a
    let y := signedBits (8 * etBytes et) b
    (match rel with | 0 => x == y | 1 => x != y | 2 => decide (x < y) | _ => decide (x ≤ y), Flags.none)
  else
    let x := fdecode (etFmt et) a
    let y := fdecode (etFmt et) b
    if x.isNan || y.isNan then (rel == 1, Flags.invalidIf (decide (2 ≤ rel) || x.isSignalling || y.isSignalling))
    else
      let c := fvCmp x y
      (match rel with | 0 => c == .eq | 1 => c != .eq | 2 => c == .lt | _ => c != .gt, Flags.none)

def doVcmp (o : CV) (s : State) : State :=
  let b := etBytes o.et
  let x := s.vN o.f1
  let y := s.vN o.f2
  let p := s.pN o.pg
  let r (i : Nat) : Bool × Flags := vcmpElem o.et (o.fd / 8) (elem x b i) (elem y b i)
  let fl := (List.range (64 / b)).foldl (fun a i => if active p b i then a.or (r i).2 else a) Flags.none
  ((s.putPN (o.fd % 8) (predicatewise b p (s.pN (o.fd % 8)) (fun i => (r i).1))).raiseFx s.focus.tile fl).retire o.s

def execVcmp (o : CV) (s : State) : Host.Outcome State Fault Refusal := s.vector (.vcmp o) (doVcmp o)

def doVsel (o : CV) (s : State) : State :=
  let b := etBytes o.et
  let a := s.vN o.f1
  s.vDone o.s o.fd (elementwise b (s.pN o.pg) (s.vN o.f2) (fun i => (elem a b i, Flags.none)))

def execVsel (o : CV) (s : State) : Host.Outcome State Fault Refusal := s.vector (.vsel o) (doVsel o)

/-! One source (05 R108, R113, R115, R117) -/

/-- An instruction whose element i is a function of element i of V[vs1]. -/
def doVMap (o : VU) (f : Nat → Nat × Flags) (s : State) : State :=
  let b := etBytes o.et
  let a := s.vN o.f1
  s.vDone o.s o.fd (elementwise b (s.pN o.pg) (s.vN o.fd) (fun i => f (elem a b i)))

def vnegElem (et a : Nat) : Nat :=
  let w := 8 * etBytes et
  if et ≤ 3 then (2 ^ w - a) % 2 ^ w else a ^^^ 2 ^ (w - 1)
def vabsElem (et a : Nat) : Nat :=
  let w := 8 * etBytes et
  if et ≤ 3 then (if signedBits w a < 0 then (2 ^ w - a) % 2 ^ w else a) else a % 2 ^ (w - 1)

def execVneg (o : VU) (s : State) : Host.Outcome State Fault Refusal :=
  s.vector (.vneg o) (doVMap o (fun a => (vnegElem o.et a, Flags.none)))
def execVabs (o : VU) (s : State) : Host.Outcome State Fault Refusal :=
  s.vector (.vabs o) (doVMap o (fun a => (vabsElem o.et a, Flags.none)))
def execVmov (o : VU) (s : State) : Host.Outcome State Fault Refusal :=
  s.vector (.vmov o) (doVMap o (fun a => (a, Flags.none)))

/-- A special function on codes of an element type. -/
def vfnElem (f : FVal → Raw1) (et a : Nat) : Nat × Flags := deliver (etFmt et) (f (fdecode (etFmt et) a))

def execVrcp (o : VU) (s : State) : Host.Outcome State Fault Refusal := s.vector (.vrcp o) (doVMap o (vfnElem fvRcp o.et))
def execVrsqrt (o : VU) (s : State) : Host.Outcome State Fault Refusal := s.vector (.vrsqrt o) (doVMap o (vfnElem fvRsqrt o.et))
def execVexp2 (o : VU) (s : State) : Host.Outcome State Fault Refusal := s.vector (.vexp2 o) (doVMap o (vfnElem fvExp2 o.et))
def execVlog2 (o : VU) (s : State) : Host.Outcome State Fault Refusal := s.vector (.vlog2 o) (doVMap o (vfnElem fvLog2 o.et))
def execVtanh (o : VU) (s : State) : Host.Outcome State Fault Refusal := s.vector (.vtanh o) (doVMap o (vfnElem fvTanh o.et))
def execVsigm (o : VU) (s : State) : Host.Outcome State Fault Refusal := s.vector (.vsigm o) (doVMap o (vfnElem fvSigm o.et))

def doVsplatx (o : VU) (s : State) : State :=
  let x := s.getXn o.f1
  s.vDone o.s o.fd (elementwise (etBytes o.et) (s.pN o.pg) (s.vN o.fd) (fun _ => (x, Flags.none)))

def execVsplatx (o : VU) (s : State) : Host.Outcome State Fault Refusal := s.vector (.vsplatx o) (doVsplatx o)

def doVsplatf (o : VU) (s : State) : State :=
  let c := convertTo (etFmt o.et) (fdecode fp32 (s.me.r.getF o.f1).toNat)
  s.vDone o.s o.fd (elementwise (etBytes o.et) (s.pN o.pg) (s.vN o.fd) (fun _ => c))

def execVsplatf (o : VU) (s : State) : Host.Outcome State Fault Refusal := s.vector (.vsplatf o) (doVsplatf o)

/-- Member index of the tile in focus (05 R97). -/
def State.member (s : State) : Nat := s.me.run.gather.index
def State.gatherSize (s : State) : Nat := s.me.run.gather.size

def doViota (o : VU) (s : State) : State :=
  let b := etBytes o.et
  let k := s.member
  s.vDone o.s o.fd (elementwise b (s.pN o.pg) (s.vN o.fd) (fun i => (k * (64 / b) + i, Flags.none)))

def execViota (o : VU) (s : State) : Host.Outcome State Fault Refusal := s.vector (.viota o) (doViota o)

def execVquery (o : VU) (s : State) : Host.Outcome State Fault Refusal :=
  s.vector (.vquery o) (fun s => (s.putXn o.fd (512 * s.gatherSize)).retire o.s)

/-! Conversions (03 R60 to R62, 05 R119 to R121) -/

/-- A destination of a conversion. -/
inductive VDest where
  | int (w : Nat)
  | fp (f : Fmt)
  deriving DecidableEq, Repr

/-- Destination of a `vcvt` or `vcvtsr` sub-operation. -/
def vcvtDest (sub : Nat) : VDest :=
  match sub with
  | 16 => .int 8 | 17 => .int 16 | 18 => .int 32 | 19 => .int 64
  | 20 => .fp fp16 | 21 => .fp bf16 | 22 => .fp fp32 | 23 => .fp fpE4m3 | 24 => .fp fpE5m2 | 25 => .fp fpE2m3
  | 26 => .fp fpE2m1 | 27 => .fp bf16 | 28 => .fp fpE4m3 | _ => .fp fpE2m1

def VDest.bits (d : VDest) : Nat :=
  match d with
  | .int w => w
  | .fp f => f.width

/-- An integer into a signed integer of `w` bits, saturating (03 R60). -/
def saturate (w : Nat) (v : Int) : Int × Flags :=
  let lo : Int := -(2 ^ (w - 1) : Nat)
  let hi : Int := (2 ^ (w - 1) : Nat) - 1
  if v < lo then (lo, { isat := true }) else if hi < v then (hi, { isat := true }) else (v, Flags.none)

/-- One conversion from element type `et`. -/
def vcvtElem (et : Nat) (d : VDest) (a : Nat) : Nat × Flags :=
  if et ≤ 3 then
    let v := signedBits (8 * etBytes et) a
    match d with
    | .int w => let (x, fl) := saturate w v; (wrapBits w x, fl)
    | .fp f => convertOfInt f v
  else
    let x := fdecode (etFmt et) a
    match d with
    | .int w => let (y, fl) := convertToInt w x; (wrapBits w y, fl)
    | .fp f => convertTo f x

/-- How many elements a tile converts (05 R119). -/
def vcvtCount (es bits : Nat) : Nat := if 8 ≤ bits then min es (512 / bits) else es

/-- The converted register: element i of `bits` bits as `f` gives it where active, old bits elsewhere, zeros beyond. -/
def packResults (n bits bs p old : Nat) (f : Nat → Nat) : Nat :=
  (List.range n).foldr (fun i a => a * 2 ^ bits + (if active p bs i then f i % 2 ^ bits else old / 2 ^ (bits * i) % 2 ^ bits)) 0

def doVcvt (sub : Nat) (o : VU) (s : State) : State :=
  let bs := etBytes o.et
  let d := vcvtDest sub
  let n := vcvtCount (64 / bs) d.bits
  let p := s.pN o.pg
  let a := s.vN o.f1
  let r (i : Nat) : Nat × Flags := vcvtElem o.et d (elem a bs i)
  let fl := (List.range n).foldl (fun x i => if active p bs i then x.or (r i).2 else x) Flags.none
  s.vDone o.s o.fd (packResults n d.bits bs p (s.vN o.fd) (fun i => (r i).1), fl)

def execVcvt (sub : Nat) (o : VU) (s : State) : Host.Outcome State Fault Refusal := s.vector (.vcvt sub o) (doVcvt sub o)

/-- Random bits of a stochastic rounding (03 R61). -/
def srBits (sub et : Nat) : Nat :=
  match sub with
  | 27 => 16
  | 28 => if et = 4 then 7 else 20
  | _ => if et = 4 then 9 else 22

/-- One stochastic conversion with an output of the generator. -/
def vcvtsrElem (sub et : Nat) (out : Word64) (a : Nat) : Nat × Flags :=
  let f : Fmt := match vcvtDest sub with | .fp f => f | .int _ => fp32
  let n := srBits sub et
  match fdecode (etFmt et) a with
  | .fin neg m e => stochastic f n (out.toNat / 2 ^ (64 - n)) neg m e
  | x => convertTo f x

def doVcvtsr (sub : Nat) (o : VU) (s : State) : State :=
  let bs := etBytes o.et
  let bits := (vcvtDest sub).bits
  let n := vcvtCount (64 / bs) bits
  let p := s.pN o.pg
  let a := s.vN o.f1
  -- one draw for each active element, in ascending order (03 R62)
  let (rs, fl, th) := (List.range n).foldl (fun (x : Tab Nat × Flags × Thread) i =>
    if active p bs i then
      let (w, t) := x.2.2.draw
      let (v, g) := vcvtsrElem sub o.et w (elem a bs i)
      (x.1 ++ [(i, v)], x.2.1.or g, t)
    else x) (([] : Tab Nat), Flags.none, s.me)
  (s.modMe (fun _ => th)).vDone o.s o.fd (packResults n bits bs p (s.vN o.fd) (fun i => rs.look i 0), fl)

def execVcvtsr (sub : Nat) (o : VU) (s : State) : Host.Outcome State Fault Refusal := s.vector (.vcvtsr sub o) (doVcvtsr sub o)

/-! Predicate logic (05 R127, R129) -/

/-- Bits of P[pd] where P[pg] is active as given, and as they were elsewhere. -/
def mergeBits (p old new : Nat) : Nat := (p &&& new) ||| ((18446744073709551615 - p) &&& old)

def doPLogic (o : VU) (f : Nat → Nat → Nat) (s : State) : State :=
  (s.putPN (o.fd % 8) (mergeBits (s.pN o.pg) (s.pN (o.fd % 8)) (f (s.pN (o.f1 % 8)) (s.pN (o.f1 / 8))))).retire o.s

def execPand (o : VU) (s : State) : Host.Outcome State Fault Refusal := s.vector (.pand o) (doPLogic o (fun a b => a &&& b))
def execPor (o : VU) (s : State) : Host.Outcome State Fault Refusal := s.vector (.por o) (doPLogic o (fun a b => a ||| b))
def execPxor (o : VU) (s : State) : Host.Outcome State Fault Refusal := s.vector (.pxor o) (doPLogic o (fun a b => a ^^^ b))
def execPnot (o : VU) (s : State) : Host.Outcome State Fault Refusal :=
  s.vector (.pnot o) (doPLogic o (fun a _ => 18446744073709551615 - a))

def doPwhilelt (o : VU) (s : State) : State :=
  let b := etBytes o.et
  let x := (s.getX o.f1).toInt
  let l := (s.getX (o.f1 + 1)).toInt
  let k := s.member
  (s.putPN (o.fd % 8) (predicatewise b (s.pN o.pg) (s.pN (o.fd % 8))
    (fun i => decide (x + ((k * (64 / b) + i : Nat) : Int) < l)))).retire o.s

def execPwhilelt (o : VU) (s : State) : Host.Outcome State Fault Refusal := s.vector (.pwhilelt o) (doPwhilelt o)

end Sys2Proof.Machine
end

