-- ==== Sys2Proof/Machine/Members.lean ====
section
/-!
DEFINITION. Cross-member vector instructions (05 R99, R114, R116, R118, R128; 09 R231): `vextx`, `vperm`, the reductions, `pcount` and
`pfirst`.

In a gathering such an instruction is one step of all attached members, taken by the leader once every attached member has executed the
words before it; a detached or LEFT member takes no part.
-/
namespace Sys2Proof.Machine

/-- Has attached member `m` executed every word before the leader's current one? Inside a repeat it stands at the same repeat. -/
def State.memberReady (s : State) (leader m : Nat) (i : Instr) : Bool :=
  let l := s.thread leader 0
  let t := s.thread m 0
  t.run.ts == .running && !t.interlocked i &&
  match l.run.rep with
  | none => t.run.rep.isNone && t.run.gather.buf.isEmpty
  | some _ => t.run.rep.isSome && t.r.loop.repdone == l.r.loop.repdone && t.run.gather.buf.length == 2

/-- The tiles that take part in a cross-member instruction of the thread in focus; none while it must wait. A detached follower executes one
of its own stream alone, with the other members absent (DESIGN CHOICE, assumption 92). -/
def State.participants (s : State) (i : Instr) : Option (List Nat) :=
  let g := s.focus.tile
  match s.me.run.gather.role with
  | .leader =>
    let ms := s.attachedOf g
    if ms.all (fun m => s.memberReady g m i) then some (g :: ms) else none
  | .attached => none
  | _ => some [g]

/-! Waiting together (09 R227, R228). A member that waits is SLEEPING with a `bwait` entry of address 0; `phase` says in what. -/

def inGrejoin : Nat := 2
def inGsync : Nat := 3

/-- The thread in focus waits in a gathering instruction. -/
def State.waitJoint (s : State) (ph : Nat) : State := (s.modMe (fun t => t.modRun (fun r => { r with phase := ph }))).sleep 3 0 0

/-- Does t0 of tile `m` wait in the instruction? -/
def State.waitsIn (s : State) (m ph : Nat) : Bool :=
  let r := (s.thread m 0).run
  r.ts == .sleeping && r.phase == ph

/-- A member completes the gathering instruction it waits in; its word was forwarded at the leader's issue. -/
def State.completeJoint (s : State) (m : Nat) (sb : Bool) : State :=
  let f := s.focus
  let s := ((s.lookAt m 0).modMe (fun t => t.wake.modRun (fun r => { r with fwdDone := true }))).retire sb
  { s with focus := f }

/-- Is the access a store, or one of an ended task? An AMO, a barrier arrival and a join without a result read too (13 R280). -/
def Out.isStore (o : Out) : Bool := o.dst == .gone || (o.dst == .nowhere && o.parts.all (fun x => x.cls &&& 2 == 0))

/-- Has t0 of tile `m` performed every earlier access that is no store, and has it every word of its earlier `qpopv` (09 R228)? -/
def State.resultsIn (s : State) (m : Nat) : Bool :=
  (s.thread m 0).run.outs.all Out.isStore && !(s.thread m 0).run.pend.any Pend.wantsWords

/-- The wakes of every participant's units; false while one is stalled (19 R403: each member wakes its own units). -/
def State.wakeAll (s : State) (ps : List Nat) (mat : Bool) : State × Bool :=
  ps.foldl (fun a m =>
    let (s, ok) := a.1.wakeUnits m 0 true mat
    (if ok then (if mat then (s.useUnit m false).useUnit m true else s.useUnit m false) else s, a.2 && ok)) (s, true)

/-- An attached member whose own next offset differs from the leader's after a word at `lpend` that both have executed detaches (09 R226). Within
a repeat no offset has changed. -/
def State.followJoint (s : State) (g m : Nat) : State :=
  let t := s.thread m 0
  if m = g ∨ t.run.gather.role ≠ .attached ∨ t.run.rep.isSome ∨ pcOff t.r.pc = pcOff (s.thread g 0).r.pc then s
  else s.modThread m 0 (fun t => t.modRun (fun r => { r with gather := { r.gather with role := .detached, buf := [] } }))

/-- The effect `f` of a cross-member instruction on each participant, from the state before it; every participant completes. The
word is not forwarded: the step is one of all members, which compares their next offsets. -/
def State.joint (s : State) (i : Instr) (mat sb : Bool) (f : State → List Nat → State → State) : State :=
  match s.participants i with
  | none => s
  | some ps =>
    let g := s.focus.tile
    let (s, ok) := s.wakeAll ps mat
    if !ok then s
    else
      let s1 := ps.foldl (fun a m => f s ps (a.lookAt m 0)) s
      let s2 := ps.foldl (fun a m => ((a.lookAt m 0).modMe (fun t => t.modRun (fun r => { r with fwdDone := true }))).retire sb) s1
      (ps.foldl (fun a m => a.followJoint g m) s2).lookAt g 0

/-- The participant that holds member index `k`. -/
def State.memberAt (s : State) (ps : List Nat) (k : Nat) : Option Nat := ps.find? (fun m => (s.thread m 0).run.gather.index == k)

/-- Architectural element `e` of b bytes of v register `r`, if a participant holds it. -/
def State.archElem (s : State) (ps : List Nat) (b r e : Nat) : Option Nat :=
  (s.memberAt ps (e / (64 / b))).map (fun m => elem ((s.tile m).r.getV r).toNat b (e % (64 / b)))

/-- `vextx` (05 R114). -/
def vextxOne (o : VU) (s0 : State) (ps : List Nat) (s : State) : State :=
  let b := etBytes o.et
  let j := s.getXn o.f1
  let w := 8 * b
  let y := (s0.archElem ps b o.f1 j).getD 0
  let v : Word64 :=
    if (64 / b) * s.gatherSize ≤ j then 0
    else if o.et ≤ 3 then sext w y else BitVec.ofNat 64 y
  s.putX o.fd v

def execVextx (o : VU) (s : State) : Host.Outcome State Fault Refusal :=
  s.run (.vextx o) (fun s => s.joint (.vextx o) false o.s (vextxOne o))

/-- `vperm` (05 R116): every element is read before any write. -/
def vpermOne (o : VU) (s0 : State) (ps : List Nat) (s : State) : State :=
  let b := etBytes o.et
  let idx := s.vN o.f1
  let m := (64 / b) * s.gatherSize
  s.putVN o.fd (elementwise b (s.pN o.pg) (s.vN o.fd) (fun i =>
    let j := elem idx b i
    (if j < m then (s0.archElem ps b o.fd j).getD 0 else 0, Flags.none))).1

def execVperm (o : VU) (s : State) : Host.Outcome State Fault Refusal :=
  s.run (.vperm o) (fun s => s.joint (.vperm o) false o.s (vpermOne o))

/-! Reductions (03 R70) -/

inductive RedOp where
  | sum | max | min
  deriving DecidableEq, Repr

def RedOp.vop (r : RedOp) : VOp := match r with | .sum => .add | .max => .max | .min => .min

def redIdentity (r : RedOp) (et : Nat) : Nat :=
  let w := 8 * etBytes et
  if et ≤ 3 then (match r with | .sum => 0 | .max => 2 ^ (w - 1) | .min => 2 ^ (w - 1) - 1)
  else match r with
    | .sum => 2 ^ (w - 1)
    | .max => (etFmt et).infCode true
    | .min => (etFmt et).infCode false

/-- One level of the pairwise tree: positions 2j and 2j + 1 combine. -/
def pairUp (f : Nat → Nat → Nat × Flags) : List Nat → List Nat × Flags
  | a :: b :: r => let (v, g) := f a b; let (l, h) := pairUp f r; (v :: l, g.or h)
  | l => (l, Flags.none)

/-- The tree over a list of 2^n values. -/
def treeOver (f : Nat → Nat → Nat × Flags) : Nat → List Nat → Nat × Flags
  | 0, l => (l.headD 0, Flags.none)
  | n + 1, l => let (l', g) := pairUp f l; let (v, h) := treeOver f n l'; (v, g.or h)

def redCombine (r : RedOp) (et a b : Nat) : Nat × Flags := vOp r.vop et 0 a b

/-- The value of one tile's share, and its flags. -/
def redTile (r : RedOp) (et p v : Nat) : Nat × Flags :=
  let b := etBytes et
  let id := redIdentity r et
  treeOver (redCombine r et) (Nat.log2 (64 / b)) ((List.range (64 / b)).map (fun i => if active p b i then elem v b i else id))

/-- A reduction on one participant: the whole result goes to element 0 of its share; the flags of the member tree go to member 0. -/
def redOne (r : RedOp) (o : VU) (s0 : State) (ps : List Nat) (s : State) : State :=
  let b := etBytes o.et
  let share (m : Nat) : Nat × Flags :=
    redTile r o.et ((s0.tile m).r.getP o.pg).toNat ((s0.tile m).r.getV o.f1).toNat
  let n := s.gatherSize
  let vals := (List.range n).map (fun k => match s0.memberAt ps k with
    | some m => (share m).1
    | none => redIdentity r o.et)
  let (v, fl) := treeOver (redCombine r o.et) (Nat.log2 n) vals
  let old := s.vN o.fd
  let s := s.putVN o.fd (old / 256 ^ b * 256 ^ b + v % 256 ^ b)
  let s := s.raiseFx s.focus.tile (share s.focus.tile).2
  if s.focus.tile = ps.headD s.focus.tile then s.raiseFx s.focus.tile fl else s

def execVredsum (o : VU) (s : State) : Host.Outcome State Fault Refusal :=
  s.run (.vredsum o) (fun s => s.joint (.vredsum o) false o.s (redOne .sum o))
def execVredmax (o : VU) (s : State) : Host.Outcome State Fault Refusal :=
  s.run (.vredmax o) (fun s => s.joint (.vredmax o) false o.s (redOne .max o))
def execVredmin (o : VU) (s : State) : Host.Outcome State Fault Refusal :=
  s.run (.vredmin o) (fun s => s.joint (.vredmin o) false o.s (redOne .min o))

/-! Predicates over members (05 R128) -/

def pcountOne (o : VU) (s0 : State) (ps : List Nat) (s : State) : State :=
  s.putXn o.fd ((ps.map (fun m => popN 64 ((s0.tile m).r.getP (o.f1 % 8)).toNat)).foldl (· + ·) 0)

def execPcount (o : VU) (s : State) : Host.Outcome State Fault Refusal :=
  s.run (.pcount o) (fun s => s.joint (.pcount o) false o.s (pcountOne o))

/-- Bits that are active and set, of tile `m`. -/
def pfirstBits (o : VU) (s : State) (m : Nat) : Nat := ((s.tile m).r.getP o.pg).toNat &&& ((s.tile m).r.getP (o.f1 % 8)).toNat

/-- The architectural number of the lowest such bit. -/
def pfirstAt (o : VU) (s : State) (ps : List Nat) : Option Nat :=
  ps.foldl (fun a m =>
    let n := pfirstBits o s m
    if n = 0 then a
    else
      let i := (s.thread m 0).run.gather.index * 64 + ctzN 64 n
      match a with
      | some j => some (min i j)
      | none => some i) none

def pfirstOne (o : VU) (s0 : State) (ps : List Nat) (s : State) : State :=
  let k := s.member
  let new := match pfirstAt o s0 ps with
    | some i => if i / 64 = k then 2 ^ (i % 64) else 0
    | none => 0
  s.putPN (o.fd % 8) (mergeBits (s.pN o.pg) (s.pN (o.fd % 8)) new)

def execPfirst (o : VU) (s : State) : Host.Outcome State Fault Refusal :=
  s.run (.pfirst o) (fun s => s.joint (.pfirst o) false o.s (pfirstOne o))

end Sys2Proof.Machine
end

