-- ==== Sys2Proof/Machine/Matrix.lean ====
section
/-!
DEFINITION. The matrix unit (06, 03 R63 to R67): its queue, the product forms and the convolution, the accumulator transfers, and the
unit's own steps, the start of an entry and the commit of a row.
-/
namespace Sys2Proof.Machine

/-! Operand formats (06 R133) -/

inductive MFmt where
  | fp (f : Fmt)
  | i8
  deriving DecidableEq, Repr

def MFmt.bits (m : MFmt) : Nat :=
  match m with
  | .fp f => f.width
  | .i8 => 8

/-- Formats, depth and scales of the product forms by c4; `mconv` uses the rows 0 to 6 by its FMT. -/
structure MShape where
  fa : MFmt
  fb : MFmt
  k : Nat
  scaled : Bool
  deriving DecidableEq, Repr

def mshape (c4 : Nat) : MShape :=
  match c4 with
  | 0 => ⟨.fp fpE4m3, .fp fpE4m3, 128, true⟩
  | 1 => ⟨.fp fpE4m3, .fp fpE5m2, 128, true⟩
  | 2 => ⟨.fp fpE5m2, .fp fpE4m3, 128, true⟩
  | 3 => ⟨.fp fpE5m2, .fp fpE5m2, 128, true⟩
  | 4 => ⟨.fp fpE4m3, .fp fpE2m3, 128, true⟩
  | 5 => ⟨.fp fpE4m3, .fp fpE2m1, 128, true⟩
  | 6 => ⟨.fp fpE2m1, .fp fpE2m1, 128, true⟩
  | 7 => ⟨.fp bf16, .fp bf16, 64, false⟩
  | _ => ⟨.i8, .i8, 128, false⟩

/-- Bytes of a row of n elements. -/
def rowBytes (f : MFmt) (n : Nat) : Nat := (n * f.bits + 7) / 8

/-! The update of one output element (03 R64 to R66) -/

/-- The exact sum of products: what R65 makes of it, and its flags. -/
structure BlockSum where
  nan : Bool
  nv : Bool
  pInf : Bool
  nInf : Bool
  sum : Int
  allNegZero : Bool
  deriving DecidableEq, Repr

/-- One product into the sum, in units of 2^q. -/
def blockAdd (q : Int) (t : BlockSum) (a b : FVal) : BlockSum :=
  let sig := a.isSignalling || b.isSignalling
  match a, b with
  | .fin n1 m1 e1, .fin n2 m2 e2 =>
    let v := scaledTo (n1 != n2) (m1 * m2) (e1 + e2) q
    { t with sum := t.sum + v, allNegZero := t.allNegZero && (n1 != n2) && m1 * m2 == 0 }
  | .nan _ _, _ => { t with nan := true, nv := t.nv || sig, allNegZero := false }
  | _, .nan _ _ => { t with nan := true, nv := t.nv || sig, allNegZero := false }
  | _, _ =>
    if a.isZero || b.isZero then { t with nan := true, nv := true, allNegZero := false }
    else if a.neg != b.neg then { t with nInf := true, allNegZero := false } else { t with pInf := true, allNegZero := false }

/-- The sum as a value. -/
def blockValue (q : Int) (t : BlockSum) : FVal × Flags :=
  let both := t.pInf && t.nInf
  let fl := Flags.invalidIf (t.nv || both)
  if t.nan || both then (.nan false true, fl)
  else if t.pInf then (.inf false, fl)
  else if t.nInf then (.inf true, fl)
  else if t.sum = 0 then (.fin t.allNegZero 0 q, fl)
  else (.fin (decide (t.sum < 0)) t.sum.natAbs q, fl)

def blockSum (fa fb : Fmt) (as bs : List Nat) : FVal × Flags :=
  let q := fa.qmin + fb.qmin
  blockValue q ((as.zip bs).foldl (fun t p => blockAdd q t (fdecode fa p.1) (fdecode fb p.2)) ⟨false, false, false, false, 0, true⟩)

/-- The pair after an update by the rounded product p (R64). -/
def pairUpdate (hi lo p : Nat) : (Nat × Nat) × Flags :=
  let h := fdecode fp32 hi
  let x := fdecode fp32 p
  let (hi', f1) := deliver fp32 (fvAdd .rne h x)
  match h, x, fdecode fp32 hi' with
  | .fin n1 m1 e1, .fin n2 m2 e2, .fin n3 m3 e3 =>
    let q := min e1 (min e2 e3)
    let e := scaledTo n1 m1 e1 q + scaledTo n2 m2 e2 q - scaledTo n3 m3 e3 q
    let (lo', f2) := deliver fp32 (fvAdd .rne (fdecode fp32 lo) (.fin (decide (e < 0)) e.natAbs q))
    ((hi', lo'), f1.or f2)
  | _, _, _ => ((hi', 0), f1)

/-- The update of a floating-point form. -/
def fpUpdate (sh : MShape) (fa fb : Fmt) (sA sB hi lo : Nat) (as bs : List Nat) : (Nat × Nat) × Flags :=
  let (sum, f0) := blockSum fa fb as bs
  let (p, f1) :=
    if sh.scaled then
      let (sc, g) := deliver fp32 (fvMul (fdecode fp32 sA) (fdecode fp32 sB))
      let (p, g') := deliver fp32 (fvMul sum (fdecode fp32 sc))
      (p, g.or g')
    else deliver fp32 (fvMul sum (.fin false 1 0))
  let (r, f2) := pairUpdate hi lo p
  (r, (f0.or f1).or f2)

/-- The update of `mma.i8` (R66). -/
def i8Update (hi lo : Nat) (as bs : List Nat) : (Nat × Nat) × Flags :=
  let t := signedBits 32 hi + (as.zip bs).foldl (fun a p => a + signedBits 8 p.1 * signedBits 8 p.2) (0 : Int)
  let (v, fl) := saturate 32 t
  ((wrapBits 32 v, lo), fl)

def elementUpdate (sh : MShape) (sA sB hi lo : Nat) (as bs : List Nat) : (Nat × Nat) × Flags :=
  match sh.fa, sh.fb with
  | .fp fa, .fp fb => fpUpdate sh fa fb sA sB hi lo as bs
  | _, _ => i8Update hi lo as bs

/-- RN(hi + lo) (R67). -/
def readPair (p : Word32 × Word32) : Nat × Flags :=
  deliver fp32 (fvAdd .rne (fdecode fp32 p.1.toNat) (fdecode fp32 p.2.toNat))

/-! Shape records (06 R140) -/

def recField (rb : List Byte) (lo n : Nat) : Nat := bytesNat ((rb.drop lo).take n)

structure ConvRec where
  h : Nat
  w : Nat
  c : Nat
  kh : Nat
  kw : Nat
  sy : Nat
  sx : Nat
  dy : Nat
  dx : Nat
  pt : Nat
  pl : Nat
  ow : Nat
  oh : Nat
  p0 : Nat
  k0 : Nat
  inb : Nat
  yp : Nat
  xp : Nat
  padv : Nat
  fmt : Nat
  rest : Nat
  deriving DecidableEq, Repr

def convRec (rb : List Byte) : ConvRec :=
  let f := recField rb
  ⟨f 0 2, f 2 2, f 4 2, f 6 1, f 7 1, f 8 1, f 9 1, f 10 1, f 11 1, f 12 2, f 14 2, f 16 2, f 18 2, f 20 4, f 24 4, f 28 4, f 32 4,
   f 36 4, f 40 1, f 41 1, f 42 22⟩

def ConvRec.depth (r : ConvRec) : Nat := r.kh * r.kw * r.c
/-- The limits of 06 R140. -/
def ConvRec.ok (r : ConvRec) : Bool :=
  r.rest == 0 && decide (r.fmt ≤ 6) && (r.fmt != 6 || decide (r.padv < 16)) && decide (r.inb < 131072) &&
  decide (r.k0 % 128 = 0) && decide (r.k0 < r.depth) &&
  [r.oh, r.ow, r.dx, r.dy, r.sx, r.sy, r.kw, r.kh, r.c, r.w, r.h].all (fun n => decide (1 ≤ n))
/-- Bytes of a pixel. -/
def ConvRec.pixel (r : ConvRec) : Nat := if r.fmt = 6 then (r.c + 1) / 2 else r.c
/-- Length of the input box. -/
def ConvRec.box (r : ConvRec) : Nat := (r.h - 1) * r.yp + (r.w - 1) * r.xp + r.pixel
/-- Weight rows in use. -/
def ConvRec.rows (r : ConvRec) : Nat := min 128 (r.depth - r.k0)

/-- Code of A[t][kk] for output position p: an input element, padding, or +0 (06 R142). -/
inductive ConvA where
  | elem (byte sub : Nat)
  | pad
  | zero
  deriving DecidableEq, Repr

def ConvRec.aAt (r : ConvRec) (p kk : Nat) : ConvA :=
  let f := r.k0 + kk
  if r.depth ≤ f then .zero
  else
    let oy := p / r.ow
    let ox := p % r.ow
    let kh := f / (r.kw * r.c)
    let kw := f / r.c % r.kw
    let c := f % r.c
    let iy : Int := (oy * r.sy + kh * r.dy : Nat) - (r.pt : Int)
    let ix : Int := (ox * r.sx + kw * r.dx : Nat) - (r.pl : Int)
    if 0 ≤ iy ∧ iy < (r.h : Int) ∧ 0 ≤ ix ∧ ix < (r.w : Int) then
      let base := r.inb + iy.toNat * r.yp + ix.toNat * r.xp
      if r.fmt = 6 then .elem (base + c / 2) (c % 2) else .elem (base + c) 0
    else .pad

/-! Operand rows -/

/-- Element `k` of a row of the scratchpad of tile `g` that begins at offset `o`. -/
def rowElem (s : State) (g o : Nat) (f : MFmt) (k : Nat) : Nat :=
  let b := f.bits
  s.mem.readNat (padKey g (o + k * b / 8)) 2 / 2 ^ (k * b % 8) % 2 ^ b

/-- What a matrix entry does. -/
inductive MKind where
  | product (c4 : Nat) (o : MM)
  | conv (o : MM)
  | zero (acc : Nat)
  | st (acc : Nat)
  | stp (acc : Nat)
  | ldp (acc : Nat)
  | row (vd : Nat)
  deriving DecidableEq, Repr

def mKind (i : Instr) : Option MKind :=
  match i with
  | .mmaE4e4 o => some (.product 0 o) | .mmaE4e5 o => some (.product 1 o) | .mmaE5e4 o => some (.product 2 o)
  | .mmaE5e5 o => some (.product 3 o) | .mmaE4f6 o => some (.product 4 o) | .mmaE4f4 o => some (.product 5 o)
  | .mmaF4f4 o => some (.product 6 o) | .mmaBf o => some (.product 7 o) | .mmaI8 o => some (.product 8 o)
  | .mconv o => some (.conv o)
  | .maccZero o => some (.zero (o.rd % 4)) | .maccSt o => some (.st (o.rd % 4)) | .maccStp o => some (.stp (o.rd % 4))
  | .maccLdp o => some (.ldp (o.rd % 4)) | .maccRow o => some (.row o.rd)
  | _ => none

/-- A[i][0..K−1] of an entry, read at tile `g`; none for a row of a convolution that lies beyond the output grid. -/
def aRow (s : State) (g : Nat) (e : MatEntry) (i : Nat) : Option (List Nat) :=
  match mKind e.instr with
  | some (.product c4 _) =>
    let sh := mshape c4
    some ((List.range sh.k).map (fun k => rowElem s g (e.a + i * e.sa) sh.fa k))
  | some (.conv _) =>
    let r := convRec e.recBytes
    let sh := mshape r.fmt
    let p := r.p0 + i
    if r.ow * r.oh ≤ p then none
    else some ((List.range 128).map (fun kk => match r.aAt p kk with
      | .zero => 0
      | .pad => r.padv % 2 ^ sh.fa.bits
      | .elem o sub => s.mem.readNat (padKey g o) 1 / 2 ^ (4 * sub) % 2 ^ sh.fa.bits))
  | _ => some []

/-- B[0..K−1][j] of an entry, read at tile `g`. `n` is how many rows the leader's record uses. -/
def bCol (s : State) (g : Nat) (e : MatEntry) (sh : MShape) (t : Bool) (n j : Nat) : List Nat :=
  (List.range sh.k).map (fun k =>
    if n ≤ k then 0
    else if t then rowElem s g (e.b + j * e.sb) sh.fb k else rowElem s g (e.b + k * e.sb) sh.fb j)

/-- Form, T, Z and accumulator of a product or convolution entry. -/
def mParts (e : MatEntry) : Option (MShape × MM × Nat) :=
  match mKind e.instr with
  | some (.product c4 o) => some (mshape c4, o, (mshape c4).k)
  | some (.conv o) => let r := convRec e.recBytes; some (mshape r.fmt, o, r.rows)
  | _ => none

/-! Checks at issue (06 R135, R141) -/

/-- A failed check: cause and address. -/
abbrev MFail := Option (Nat × Nat)

def lowest (l : List Nat) : Option Nat :=
  match l with
  | [] => none
  | a :: r => some (r.foldl min a)

/-- The first byte of [a, a + n) outside the own scratchpad. -/
def outside (base a n : Nat) : Option Nat :=
  if n = 0 then none
  else if base ≤ a ∧ a + n ≤ base + 131072 then none
  else if base ≤ a ∧ a < base + 131072 then some (base + 131072) else some a

/-- Starts of the rows of an operand: base, stride, number of rows. -/
def rowStarts (a st n : Nat) : List Nat := (List.range n).map (fun r => (a + r * st) % 18446744073709551616)

/-- Steps 3 and 4 for operands given as (base, stride, rows, row length) with an alignment of base and stride. The stride of a single row
is checked too; its failure has the row's address. -/
def checkRows (base align mis acc : Nat) (ops : List (Nat × Nat × Nat × Nat)) (extra : List (Nat × Nat)) : MFail :=
  let starts := ops.flatMap (fun o => rowStarts o.1 o.2.1 o.2.2.1)
  let single := ops.filterMap (fun o => if o.2.2.1 ≤ 1 ∧ o.2.1 % align ≠ 0 then some o.1 else none)
  match lowest (starts.filter (fun a => a % align != 0) ++ single) with
  | some a => some (mis, a)
  | none =>
    let bad := ops.flatMap (fun o => (rowStarts o.1 o.2.1 o.2.2.1).filterMap (fun a => outside base a o.2.2.2))
      ++ extra.filterMap (fun x => outside base x.1 x.2)
    (lowest bad).map (fun a => (acc, a))

/-- The B operand: base, stride, rows, row length. -/
def bOperand (sh : MShape) (t : Bool) (n b sb : Nat) : Nat × Nat × Nat × Nat :=
  if t then (b, sb, 16, rowBytes sh.fb n) else (b, sb, n, rowBytes sh.fb 16)

/-- Spans from the lowest to the highest byte of an operand, as scratchpad offsets (06 R137). -/
def spanOf (o : Nat × Nat × Nat × Nat) : Nat × Nat := (o.1 % 131072, o.2.1 * (o.2.2.1 - 1) + o.2.2.2)

/-! Entering the queue (06 R130, R131) -/

/-- An entry with what is captured at issue. -/
def State.newEntry (s : State) (i : Instr) (x1 x2 : Word64) (a b sa sb : Nat) (sB : Nat) (sA : VWord) (rb : List Byte) (gang : List Nat)
    (reads writes : List (Nat × Nat)) : MatEntry :=
  { serial := s.myTile.e.mqSerial, word := s.focus.word, instr := i, pc := s.me.r.pc, x1 := x1, x2 := x2, a := a, b := b, sa := sa, sb := sb, scaleB := sB,
    scaleA := sA, recBytes := rb, rep := s.me.repMark, gang := gang, reads := reads, writes := writes }

def State.pushEntry (s : State) (e : MatEntry) : State :=
  s.modMyTile (fun t => t.modEng (fun q => { q with mq := q.mq ++ [e], mqSerial := q.mqSerial + 1 }))

/-- Has t0 of tile `g` an earlier access outstanding at its own tile that an entry of class `cls` follows: a store, and for a write of an
entry also a load (06 R137)? -/
def State.ownOpen (s : State) (g cls : Nat) : Bool :=
  (s.thread g 0).run.outs.any (fun o => o.parts.any (fun x => x.home == g && (x.cls % 2 == 1 || cls == 1)))

/-- Room in the queue, and nothing before the entry's accesses: class `cls` is 2 for reads, 1 for writes, 0 for none. -/
def State.mqReady (s : State) (cls g : Nat) : Bool :=
  decide ((s.tile g).e.mq.length < 4) && !s.ownOpen g cls && (decide (cls = 0) || !s.heldOrder g 0 cls g)

/-- The common course of a matrix-unit instruction: the checks, room, units, entry. `wait` holds back the checks. -/
def State.matrix (s : State) (i : Instr) (sb : Bool) (cls : Nat) (wait : State → Bool) (check : State → MFail) (enter : State → State) :
    Host.Outcome State Fault Refusal :=
  s.run i (fun s =>
    if wait s then s.waitHere
    else match check s with
    | some (c, a) => s.takeTrap c 0 a
    | none => s.withUnits true (fun s => if s.mqReady cls s.focus.tile then (enter s).retire sb else s.waitHere))

/-- The parts of a product entry at the tile in focus. A follower of a gang form reads no A of its own. -/
def productOps (c4 : Nat) (o : MM) (s : State) (ownA : Bool) : List (Nat × Nat × Nat × Nat) :=
  let sh := mshape c4
  (if ownA then [(s.getXn o.rs1, s.me.r.mstrideA, 16, rowBytes sh.fa sh.k)] else []) ++
  [bOperand sh o.t sh.k (s.getXn o.rs2) s.me.r.mstrideB]

def productCheck (c4 : Nat) (o : MM) (ownA : Bool) (s : State) : MFail :=
  checkRows (s.prefixOf s.focus.tile) 4 0x04 0x05 (productOps c4 o s ownA) []

def productEnter (i : Instr) (c4 : Nat) (o : MM) (ownA : Bool) (gang : List Nat) (s : State) : State :=
  s.pushEntry (s.newEntry i (s.getX o.rs1) (s.getX o.rs2) (s.getXn o.rs1 % 131072) (s.getXn o.rs2 % 131072) s.me.r.mstrideA s.me.r.mstrideB
    (if (mshape c4).scaled then (s.me.r.getF o.fs).toNat else 0) (if (mshape c4).scaled then s.getV o.fs else 0) [] gang
    ((productOps c4 o s ownA).map spanOf) [])

/-- `mconv`: the record at the tile in focus (06 R141). -/
def recordAt (o : MM) (s : State) : List Byte := s.mem.readBytes (padKey s.focus.tile (s.getXn o.rs1 % 131072)) 64

def recordFail (o : MM) (s : State) : Option (Nat × Nat) :=
  let a := s.getXn o.rs1
  let base := s.prefixOf s.focus.tile
  if a % 8 ≠ 0 then some (0x04, a)
  else match outside base a 64 with
    | some _ => some (0x05, a)
    | none =>
      match (List.range 8).find? (fun k => poisonedAt s s.focus.tile (a % 131072 + 8 * k) 8) with
      | some k => some (0x21, a + 8 * k)
      | none => if (convRec (recordAt o s)).ok then none else some (0x02, a)

/-- The record's read waits, as a load in its place does, for earlier stores and `macc` writes of the thread to it and for a claim on its
line (R137, R138). -/
def recordWaits (o : MM) (s : State) : Bool :=
  let g := s.focus.tile
  let a := s.getXn o.rs1
  (outside (s.prefixOf g) a 64).isNone && a % 8 == 0 &&
  (s.ownOpen g 2 || s.heldOrder g 0 2 g || mqConflict s ⟨g, a % 131072, s.nameOf g⟩ 64 false || s.claimed g (a % 131072) 64)

def convCheck (o : MM) (ownA : Bool) (rb : List Byte) (s : State) : MFail :=
  match if ownA then recordFail o s else none with
  | some x => some x
  | none =>
    let r := convRec rb
    let base := s.prefixOf s.focus.tile
    let bop := bOperand (mshape r.fmt) o.t r.rows (s.getXn o.rs2) s.me.r.mstrideB
    checkRows base 4 0x04 0x05 [bop] (if ownA then [(base + r.inb, r.box)] else [])

def convEnter (i : Instr) (o : MM) (ownA : Bool) (rb : List Byte) (gang : List Nat) (s : State) : State :=
  let r := convRec rb
  let bop := bOperand (mshape r.fmt) o.t r.rows (s.getXn o.rs2) s.me.r.mstrideB
  s.pushEntry (s.newEntry i (s.getX o.rs1) (s.getX o.rs2) 0 (s.getXn o.rs2 % 131072) 0 s.me.r.mstrideB (s.me.r.getF o.fs).toNat (s.getV o.fs) rb gang
    (spanOf bop :: (if ownA then [(r.inb, r.box)] else [])) [])

/-! The gang form (06 R139). It first acts as `gsync`: a member whose own checks pass waits SLEEPING until all are there; the leader's word
reaches the others only once its own checks, for `mconv` those of its record, have passed. -/

/-- A member whose implied `gsync` is over stalls RUNNING, as at a full queue or for a wake, until the entry enters every queue. -/
def inGangRoom : Nat := 5

def State.stallsInGang (s : State) (m : Nat) : Bool := (s.thread m 0).run.ts == .running && (s.thread m 0).run.phase == inGangRoom

/-- The implied `gsync` of the gathering led by `g` is over: every attached member waits in it with its earlier reads performed, its stores, sends
and copies injected (09 R228). Entries that are still queued complete first in their queues (R139; DEDUCED, assumption 108). -/
def State.gangReady (s : State) (g : Nat) (ps : List Nat) : Bool :=
  ps.all (fun m => (m == g || s.waitsIn m inGsync || s.stallsInGang m) && s.resultsIn m && !(s.tile m).e.unsent.any (fun u => u.msg.sthr == 0))

/-- The members whose checks fail at the entry trap alone, and the others wait. -/
def State.gangTraps (s : State) (check : Bool → State → MFail) (ps : List Nat) : State :=
  ps.foldl (fun a m => match check false (s.lookAt m 0) with
    | some (c, x) => (a.lookAt m 0).takeTrap c 0 x
    | none => a) s

/-- The entry enters every member's queue in one step. -/
def State.gangEnter (s : State) (sb : Bool) (enter : Bool → List Nat → State → State) (g : Nat) (ps : List Nat) : State :=
  let s := ps.foldl (fun a m => enter (m == g) ps (a.lookAt m 0)) s
  (ps.foldl (fun a m => a.completeJoint m sb) s).lookAt g 0

/-- The members stall RUNNING, with no wait-table entry (R130). -/
def State.gangStall (s : State) (ps : List Nat) : State :=
  ps.foldl (fun a m => a.modThread m 0 (fun t => t.wake.modRun (fun r => { r with phase := inGangRoom }))) s

/-- The leader's part, once its own checks have passed. -/
def State.gangLead (s : State) (sb : Bool) (check : Bool → State → MFail) (enter : Bool → List Nat → State → State) : State :=
  let g := s.focus.tile
  let ms := s.attachedOf g
  let ps := g :: ms
  if !s.gangReady g ps then s.waitJoint inGsync
  else if ms.any (fun m => (check false (s.lookAt m 0)).isSome) then ((s.gangTraps check ms).lookAt g 0).waitJoint inGsync
  else
    let (s, ok) := s.wakeAll ps true
    if !ok ∨ !ps.all (s.mqReady 2) then s.gangStall ps else s.gangEnter sb enter g ps

/-- A gang form: one step of all attached members. -/
def State.gang (s : State) (sb : Bool) (wait : State → Bool) (check : Bool → State → MFail) (enter : Bool → List Nat → State → State) : State :=
  let lead := s.me.run.gather.role == .leader
  if s.me.run.gather.role == .detached then s.illegal
  else if !lead ∧ s.stallsInGang s.focus.tile then s
  else if lead ∧ wait s then (if s.me.run.phase = inGsync then s.waitJoint inGsync else s.stopDue s.focus.tile 0)
  else match check lead s with
    | some (c, x) => s.takeTrap c 0 x
    | none => if lead then s.gangLead sb check enter else s.waitJoint inGsync

/-- Does the G bit form the joint array? G = 1 where SIZE = 1 is G = 0. -/
def State.isGang (s : State) (o : MM) : Bool := o.g && decide (1 < s.gatherSize)

def gangProduct (i : Instr) (c4 : Nat) (o : MM) (s : State) : State :=
  s.gang o.s (fun _ => false) (productCheck c4 o) (productEnter i c4 o)

/-- A product form. -/
def doProduct (i : Instr) (c4 : Nat) (o : MM) (s : State) : Host.Outcome State Fault Refusal :=
  if s.isGang o ∧ s.focus.thread = 0 then
    s.run i (gangProduct i c4 o)
  else s.matrix i o.s 2 (fun _ => false) (productCheck c4 o true) (productEnter i c4 o true [])

def execMmaE4e4 (o : MM) (s : State) : Host.Outcome State Fault Refusal := doProduct (.mmaE4e4 o) 0 o s
def execMmaE4e5 (o : MM) (s : State) : Host.Outcome State Fault Refusal := doProduct (.mmaE4e5 o) 1 o s
def execMmaE5e4 (o : MM) (s : State) : Host.Outcome State Fault Refusal := doProduct (.mmaE5e4 o) 2 o s
def execMmaE5e5 (o : MM) (s : State) : Host.Outcome State Fault Refusal := doProduct (.mmaE5e5 o) 3 o s
def execMmaE4f6 (o : MM) (s : State) : Host.Outcome State Fault Refusal := doProduct (.mmaE4f6 o) 4 o s
def execMmaE4f4 (o : MM) (s : State) : Host.Outcome State Fault Refusal := doProduct (.mmaE4f4 o) 5 o s
def execMmaF4f4 (o : MM) (s : State) : Host.Outcome State Fault Refusal := doProduct (.mmaF4f4 o) 6 o s
def execMmaBf (o : MM) (s : State) : Host.Outcome State Fault Refusal := doProduct (.mmaBf o) 7 o s
def execMmaI8 (o : MM) (s : State) : Host.Outcome State Fault Refusal := doProduct (.mmaI8 o) 8 o s

/-- The followers' weight rows follow the leader's record. -/
def gangConv (o : MM) (s : State) : State :=
  let rb := recordAt o (s.lookAt s.me.run.gather.leader 0)
  s.gang o.s (recordWaits o) (fun own => convCheck o own rb) (fun own gang => convEnter (.mconv o) o own rb gang)

def execMconv (o : MM) (s : State) : Host.Outcome State Fault Refusal :=
  let i : Instr := .mconv o
  if s.isGang o ∧ s.focus.thread = 0 then s.run i (gangConv o)
  else s.matrix i o.s 2 (recordWaits o) (fun s => convCheck o true (recordAt o s) s) (fun s => convEnter i o true (recordAt o s) [] s)

/-- What the leader of a gathering does at the end of the `gsync` that a gang form implies. -/
def gangForm (s : State) (i : Instr) : Option (State → State) :=
  match mKind i with
  | some (.product c4 o) => if s.isGang o then some (gangProduct i c4 o) else none
  | some (.conv o) => if s.isGang o then some (gangConv o) else none
  | _ => none

/-! Accumulator transfers (06 R143) -/

def maccCheck (o : CR) (n : Nat) (write : Bool) (s : State) : MFail :=
  checkRows (s.prefixOf s.focus.tile) 64 (if write then 0x06 else 0x04) (if write then 0x07 else 0x05) [(s.getXn o.rs1, 0, 1, n)] []

def maccEnter (i : Instr) (o : CR) (n : Nat) (write : Bool) (s : State) : State :=
  let a := s.getXn o.rs1 % 131072
  s.pushEntry (s.newEntry i (s.getX o.rs1) 0 a 0 0 0 0 0 [] [] (if write then [] else [(a, n)]) (if write then [(a, n)] else []))

def execMaccZero (o : CR) (s : State) : Host.Outcome State Fault Refusal :=
  s.matrix (.maccZero o) o.s 0 (fun _ => false) (fun _ => none) (fun s => s.pushEntry (s.newEntry (.maccZero o) 0 0 0 0 0 0 0 0 [] [] [] []))
def execMaccSt (o : CR) (s : State) : Host.Outcome State Fault Refusal :=
  s.matrix (.maccSt o) o.s 1 (fun _ => false) (maccCheck o 1024 true) (maccEnter (.maccSt o) o 1024 true)
def execMaccStp (o : CR) (s : State) : Host.Outcome State Fault Refusal :=
  s.matrix (.maccStp o) o.s 1 (fun _ => false) (maccCheck o 2048 true) (maccEnter (.maccStp o) o 2048 true)
def execMaccLdp (o : CR) (s : State) : Host.Outcome State Fault Refusal :=
  s.matrix (.maccLdp o) o.s 2 (fun _ => false) (maccCheck o 2048 false) (maccEnter (.maccLdp o) o 2048 false)

/-- `macc.row` is a long-latency writer (01 R23). -/
def execMaccRow (o : CR) (s : State) : Host.Outcome State Fault Refusal :=
  s.run (.maccRow o) (fun s => s.longLatency (fun s => s.withUnits true (fun s =>
    if s.mqReady 0 s.focus.tile then
      let e := s.newEntry (.maccRow o) (s.getX o.rs1) 0 (s.getXn o.rs1 % 64) 0 0 0 0 0 [] [] [] []
      ((s.pushEntry e).addPend ⟨true, o.rd, 0, 0, .row e.serial, false⟩).retire o.s
    else s.waitHere)))

/-- `mprog` (06 R144): a CSR-like read that enters no queue. -/
def execMprog (o : CR) (s : State) : Host.Outcome State Fault Refusal :=
  s.run (.mprog o) (fun s => (s.putXn o.rd (s.myTile.e.mq.length * 256 + mprogWord s.myTile.e)).retire o.s)

/-! The unit's steps (06 R136, R142, R143, R146, R147) -/

/-- t0 of the tile is not stopped or about to trap, so the unit runs. -/
def State.mqRuns (s : State) (g : Nat) : Bool := (s.thread g 0).run.ts != .stopped && (s.thread g 0).run.due.isEmpty

/-- The poisoned granule of lowest offset among spans of the scratchpad of tile `g`. -/
def spanPoison (s : State) (g : Nat) (l : List (Nat × Nat)) : Option Nat :=
  lowest (l.filterMap (fun x => ((List.range ((x.1 + x.2 + 7) / 8 - x.1 / 8)).find? (fun k =>
    poisonedAt s g (x.1 / 8 * 8 + 8 * k) 8)).map (fun k => x.1 / 8 * 8 + 8 * k)))

def spanClaimed (s : State) (g : Nat) (l : List (Nat × Nat)) : Bool := l.any (fun x => s.claimed g x.1 x.2)

/-- The bytes that row i of a product reads at its tile; a follower of a gang reads no A, and a row of a convolution beyond the output grid
nothing (R142). -/
def rowReads (e : MatEntry) (ownA : Bool) (i : Nat) : List (Nat × Nat) :=
  match mKind e.instr, mParts e with
  | some k, some (sh, o, n) =>
    let b := bOperand sh o.t n e.b e.sb
    let bRows := (List.range b.2.2.1).map (fun x => (b.1 + x * b.2.1, b.2.2.2))
    match k with
    | .product _ _ => (if ownA then [(e.a + i * e.sa, rowBytes sh.fa sh.k)] else []) ++ bRows
    | _ =>
      let r := convRec e.recBytes
      if r.ow * r.oh ≤ r.p0 + i then []
      else (if ownA then (List.range 128).filterMap (fun kk => match r.aAt (r.p0 + i) kk with | .elem b _ => some (b, 1) | _ => none)
            else []) ++ bRows
  | _, _ => []

/-- A precise report of an entry's error after issue (06 R147). -/
def State.entryTrap (s : State) (g : Nat) (e : MatEntry) (cause sub addr : Nat) : State :=
  s.trapSoon g 0 ⟨cause, sub, addr, e.pc, e.word, false, e.rep⟩

def State.popEntry (s : State) (g : Nat) : State :=
  s.modTile g (fun t => t.modEng (fun q => { q with mq := q.mq.drop 1, mprogV := false, mprogAcc := 0, mprogRows := 0 }))

def foldAcc {α : Type} (f : Nat → Nat → α → α) (a : α) : α := upTo 16 (fun i a => upTo 16 (fun j a => f i j a) a) a

/-- The bytes `macc.st` and `macc.stp` write, with flags. -/
def stBytes (r : TileRegs) (acc : Nat) : List Byte × Flags :=
  (List.range 256).foldl (fun x n => let (v, f) := readPair (r.getAcc acc (n / 16) (n % 16)); (x.1 ++ natBytes 4 v, x.2.or f)) ([], Flags.none)
def stpBytes (r : TileRegs) (acc : Nat) : List Byte :=
  (List.range 256).flatMap (fun n => let p := r.getAcc acc (n / 16) (n % 16); natBytes 4 p.1.toNat ++ natBytes 4 p.2.toNat)

/-- A transfer runs whole. -/
def runMacc (s : State) (g : Nat) (e : MatEntry) (k : MKind) : State :=
  match k with
  | .zero acc => s.modTile g (fun t => t.modRegs (fun r => foldAcc (fun i j r => r.setAcc acc i j (0, 0)) r))
  | .st acc => let (bs, fl) := stBytes (s.tile g).r acc; (s.storeAt g e.a bs g 0).raiseFx g fl
  | .stp acc => s.storeAt g e.a (stpBytes (s.tile g).r acc) g 0
  | .ldp acc =>
    let m := s.mem
    s.modTile g (fun t => t.modRegs (fun r => foldAcc (fun i j r =>
      let o := padKey g (e.a + 128 * i + 8 * j)
      r.setAcc acc i j (BitVec.ofNat 32 (m.readNat o 4), BitVec.ofNat 32 (m.readNat (o + 4) 4))) r))
  | .row _ =>
    let v := (List.range 16).foldl (fun (x : Nat × Flags) j =>
      let (c, f) := readPair ((s.tile g).r.getAcc (e.a / 16) (e.a % 16) j)
      (x.1 + c * 2 ^ (32 * j), x.2.or f)) (0, Flags.none)
    (s.modThread g 0 (fun t => t.modRun (fun r => { r with pend := r.pend.map (fun p =>
      if p.need = .row e.serial then { p with value := v.1, need := .done } else p) }))).raiseFx g v.2
  | _ => s

/-- Is the entry the head of the queue of every member of its gang? -/
def gangAtHead (s : State) (e : MatEntry) : Bool :=
  e.gang.all (fun m => s.mqRuns m && match (s.tile m).e.mq with
    | x :: _ => x.gang == e.gang
    | [] => false)

/-- An accumulator access that arrived before the entry was issued is performed before it starts (06 R145). -/
def windowFirst (s : State) (g : Nat) (e : MatEntry) : Bool :=
  (s.home g).inbox.any (fun m => match m.body with
    | .mem q => m.kind == 3 && q.addr / 1048576 == 5 && decide (m.seen ≤ e.serial)
    | _ => false)

/-- MATRIX_ENTRY_START (06 R130, R136): a product begins with ROWS 0; a transfer runs. A gang entry is started by its leader on every
member together. -/
def execMatrixEntryStart (s : State) : Host.Outcome State Fault Refusal :=
  let g := s.focus.tile
  match (s.tile g).e.mq with
  | [] => .next s
  | e :: _ =>
    if !s.mqRuns g ∨ (s.tile g).e.mprogV ∨ (g :: e.gang).any (fun m => windowFirst s m ((s.tile m).e.mq.headD e)) ∨ (!e.gang.isEmpty ∧ (e.gang.head? != some g ∨ !gangAtHead s e)) then .next s
    else match mParts e with
      | some (_, o, _) =>
        let start (s : State) (m : Nat) : State :=
          s.modTile m (fun t => t.modEng (fun q => { q with mprogV := true, mprogAcc := o.acc, mprogRows := 0 }))
        .next ((if e.gang.isEmpty then [g] else e.gang).foldl start s)
      | none =>
        if spanClaimed s g (e.reads ++ e.writes) then .next s
        else match spanPoison s g e.reads with
          | some a => .next (s.entryTrap g e 0x21 0 (s.prefixOf g + a))
          | none => match mKind e.instr with
            | some k => .next ((((runMacc s g e k).popEntry g).useUnit g true).useUnit g false)
            | none => .next (s.popEntry g)

/-- Row i of a product at tile `m`, with the A row and scale given: the pairs and flags. -/
def productRow (s : State) (m i : Nat) (e : MatEntry) (sh : MShape) (o : MM) (n : Nat) (as : List Nat) (sA : Nat) :
    List ((Nat × Nat) × Flags) :=
  (List.range 16).map (fun j =>
    let p := (s.tile m).r.getAcc o.acc i j
    let hi := if o.z then 0 else p.1.toNat
    let lo := if o.z then 0 else p.2.toNat
    elementUpdate sh sA e.scaleB hi lo as (bCol s m e sh o.t n j))

/-- Commit of row i at one tile. -/
def commitRow (s : State) (m i acc : Nat) (r : List ((Nat × Nat) × Flags)) : State :=
  let s := s.modTile m (fun t => t.modRegs (fun q => (r.zip (List.range 16)).foldl (fun q x =>
    q.setAcc acc i x.2 (BitVec.ofNat 32 x.1.1.1, BitVec.ofNat 32 x.1.1.2)) q))
  s.raiseFx m (r.foldl (fun f x => f.or x.2) Flags.none)

/-- The step of ROWS after a row, and the end of the entry after the last one. -/
def State.rowDone (s : State) (m i : Nat) : State :=
  let s := (s.useUnit m true).useUnit m false
  if i = 15 then s.popEntry m else s.modTile m (fun t => t.modEng (fun q => { q with mprogRows := i + 1 }))

/-- MATRIX_ROW_COMMIT (06 R136, R142, R147): the next row of the executing entry, on every member of a gang. `parity` says that the row
found an accumulator parity error in the tile in focus, a member of the gang. Of the interval from issue to commit in which a row may read
each granule (R138), the model takes the commit: every operand of a row is read in this one step (DESIGN CHOICE, assumption 93). -/
def execMatrixRowCommit (parity : Bool) (s : State) : Host.Outcome State Fault Refusal :=
  let g := s.focus.tile
  match (s.tile g).e.mq with
  | [] => .next s
  | e :: _ =>
    match mParts e with
    | none => .next s
    | some (sh, o, n) =>
      let ms := if e.gang.isEmpty then [g] else e.gang
      let entry (m : Nat) : MatEntry := (s.tile m).e.mq.headD e
      if !(s.tile g).e.mprogV ∨ !s.mqRuns g ∨ (!e.gang.isEmpty ∧ !gangAtHead s e) then .next s
      else if parity then .next (s.entryTrap g e 0x20 o.acc 0)
      else if !e.gang.isEmpty ∧ e.gang.head? ≠ some g then .next s
      else
        let i := (s.tile g).e.mprogRows
        let reads (m : Nat) : List (Nat × Nat) := rowReads (entry m) (m == g) i
        if ms.any (fun m => spanClaimed s m (reads m)) then .next s
        else match ms.find? (fun m => (spanPoison s m (reads m)).isSome) with
        | some m => .next (s.entryTrap m (entry m) 0x21 0 (s.prefixOf m + (spanPoison s m (reads m)).getD 0))
        | none =>
          let sA := e.scaleA.toNat / 2 ^ (32 * i) % 2 ^ 32
          let one (a : State) (m : Nat) : State :=
            let a := match aRow s g e i with
              | none => a
              | some as => commitRow a m i o.acc (productRow s m i (entry m) sh o n as sA)
            a.rowDone m i
          .next (ms.foldl one s)

end Sys2Proof.Machine
end

