-- ==== Sys2Proof/Machine/Mesh.lean ====
section
/-!
DEFINITION. The mesh (07): port-form instructions, sends, the port VC and stream bindings; the router's steps; arrivals of port words and
stream data; link errors.
-/
namespace Sys2Proof.Machine

/-! Geometry of links (07 R150) -/

/-- The coordinate a port leads to: N, E, S, W. -/
def neighbour (g port : Nat) : Option Nat :=
  let w := waferOf g
  let y := yOf g
  let x := xOf g
  match port with
  | 0 => if 0 < y then some (tileOf w (y - 1) x) else none
  | 1 => if x < 767 then some (tileOf w y (x + 1)) else none
  | 2 => if y < 767 then some (tileOf w (y + 1) x) else none
  | _ => if 0 < x then some (tileOf w y (x - 1)) else none

def opposite (port : Nat) : Nat := (port + 2) % 4

/-- A port has no working link: it faces a hole, the edge, or a link the boot firmware marked unused (07 R161). -/
def State.noLink (s : State) (g port : Nat) : Bool :=
  (s.tile g).rt.linkUnused.look port false ||
  match neighbour g port with
  | some n => (s.tile n).c.hole
  | none => true

def State.linkIsDown (s : State) (g port : Nat) : Bool := (s.tile g).rt.linkDown.look port false

/-- A port leads to a tile (07 R174). -/
def State.leadsToTile (s : State) (g port : Nat) : Bool :=
  !s.noLink g port && !s.linkIsDown g port &&
  match neighbour g port with
  | some n => !islandSlot (clusterOf n)
  | none => false

/-! Port-form instructions (07 R171 to R174) -/

inductive POp where
  | add | sub | and | or | xor | sll | srl | sra | min | max | minu | maxu | mov | fadd | fmul | fmax
  deriving DecidableEq, Repr

def w32n (v : Word64) : Nat := v.toNat % 4294967296

/-- OP(a, b) with the flags of the FP forms (07 R172). -/
def portResult (op : POp) (a b : Word64) : Word64 × Flags :=
  let n := b.toNat % 64
  let fp (r : Nat × Flags) : Word64 × Flags := (BitVec.ofNat 64 r.1, r.2)
  match op with
  | .add => (a + b, .none)
  | .sub => (a - b, .none)
  | .and => (a &&& b, .none)
  | .or => (a ||| b, .none)
  | .xor => (a ^^^ b, .none)
  | .sll => (a <<< n, .none)
  | .srl => (a >>> n, .none)
  | .sra => (a.sshiftRight n, .none)
  | .min => (if b.slt a then b else a, .none)
  | .max => (if a.slt b then b else a, .none)
  | .minu => (if b.ult a then b else a, .none)
  | .maxu => (if a.ult b then b else a, .none)
  | .mov => (a, .none)
  | .fadd => fp (deliver fp32 (fvAdd .rne (fdecode fp32 (w32n a)) (fdecode fp32 (w32n b))))
  | .fmul => fp (deliver fp32 (fvMul (fdecode fp32 (w32n a)) (fdecode fp32 (w32n b))))
  | .fmax => fp (fvMinMax fp32 true (w32n a) (w32n b))

/-- What a source of a CP word yields: the value, the tile's FIFOs and store without it and when a word was sent, or the entry to post. -/
inductive PSrc where
  | value (v : Word64) (e : Engines) (sent : Nat)
  | emptyPort (port : Nat)
  | emptyStream (b : QBind)
  deriving DecidableEq, Repr

/-- A source: x register, port or stream register (02 R33). -/
def portSrc (s : State) (e : Engines) (k : Bool) (n : Nat) : PSrc :=
  if !k then .value (s.getX n) e 0
  else if n < 4 then
    match e.fifo.look n [] with
    | [] => .emptyPort n
    | v :: r => .value v.1 { e with fifo := e.fifo.put n r } v.2
  else
    let b := s.me.r.qbind.look (n - 8) {}
    if (openBinds s.me.run.pend).any (·.competes b) then .emptyStream b
    else match takeWord b e.store with
      | none => .emptyStream b
      | some (w, st) => .value w.word { e with store := st } w.sent

/-- A source named by a port index, and an unbound stream register. -/
def badPort (s : State) (k : Bool) (n : Nat) : Bool := k && decide (n < 4) && !s.leadsToTile s.focus.tile n
def unbound (s : State) (k : Bool) (n : Nat) : Bool := k && decide (8 ≤ n) && !(s.me.r.qbind.look (n - 8) {}).v

/-- Wait-table value of an empty source: the stream entry where a stream source is empty, else the port entry (07 R173, 10 R255). -/
def portWait (l : List PSrc) : Option (Nat × Nat) :=
  match l.findSome? (fun x => match x with | .emptyStream b => some b | _ => none) with
  | some b => some (0, qbindWord b)
  | none => (l.findSome? (fun x => match x with | .emptyPort p => some p | _ => none)).map (fun p => (1, p))

/-- Does an acquire or a passed fence hold back the reads and the write of a CP word (13 R280, R285, R287)? -/
def State.portHeld (s : State) (o : CP) : Bool :=
  let g := s.focus.tile
  ((o.k1 || o.k2) && s.heldOrder g s.focus.thread clsR g) ||
  (o.kd && s.heldOrder g s.focus.thread clsW (match neighbour g o.d with | some n => n | none => g))

def doPort (op : POp) (o : CP) (s : State) : State :=
  let g := s.focus.tile
  if unbound s o.k1 o.a || unbound s o.k2 o.b then s.illegal
  else if badPort s o.k1 o.a then s.takeTrap 0x05 0 o.a
  else if badPort s o.k2 o.b then s.takeTrap 0x05 0 o.b
  else if badPort s o.kd o.d then s.takeTrap 0x07 0 o.d
  else
    let ra := portSrc s s.myTile.e o.k1 o.a
    let e1 := match ra with | .value _ e _ => e | _ => s.myTile.e
    let rb := portSrc s e1 o.k2 o.b
    if s.portHeld o then s.waitHere
    else match ra, rb with
    | .value va _ n1, .value vb e2 n2 =>
      if o.kd ∧ !s.canInject g s.me.r.mvc 1 then s.sleep 1 0 o.d
      else
        let (r, fl) := portResult op va vb
        let s := ((s.modMyTile (fun t => { t with e := e2 })).modMe (·.acquired (max n1 n2))).raiseF fl
        if o.kd then
          match neighbour g o.d with
          | some n => (s.sendFrom g s.focus.thread (s.nameOf n) n s.me.r.mvc 0 1 false 0 0 0 (.portWord r 0)).retire o.s
          | none => s.retire o.s
        else (s.putX o.d r).retire o.s
    | _, _ => match portWait [ra, rb] with
      | some (k, v) => s.sleep k 0 v
      | none => s.waitHere

def execMadd (o : CP) (s : State) : Host.Outcome State Fault Refusal := s.run (.madd o) (doPort .add o)
def execMsub (o : CP) (s : State) : Host.Outcome State Fault Refusal := s.run (.msub o) (doPort .sub o)
def execMand (o : CP) (s : State) : Host.Outcome State Fault Refusal := s.run (.mand o) (doPort .and o)
def execMor (o : CP) (s : State) : Host.Outcome State Fault Refusal := s.run (.mor o) (doPort .or o)
def execMxor (o : CP) (s : State) : Host.Outcome State Fault Refusal := s.run (.mxor o) (doPort .xor o)
def execMsll (o : CP) (s : State) : Host.Outcome State Fault Refusal := s.run (.msll o) (doPort .sll o)
def execMsrl (o : CP) (s : State) : Host.Outcome State Fault Refusal := s.run (.msrl o) (doPort .srl o)
def execMsra (o : CP) (s : State) : Host.Outcome State Fault Refusal := s.run (.msra o) (doPort .sra o)
def execMmin (o : CP) (s : State) : Host.Outcome State Fault Refusal := s.run (.mmin o) (doPort .min o)
def execMmax (o : CP) (s : State) : Host.Outcome State Fault Refusal := s.run (.mmax o) (doPort .max o)
def execMminu (o : CP) (s : State) : Host.Outcome State Fault Refusal := s.run (.mminu o) (doPort .minu o)
def execMmaxu (o : CP) (s : State) : Host.Outcome State Fault Refusal := s.run (.mmaxu o) (doPort .maxu o)
def execMmov (o : CP) (s : State) : Host.Outcome State Fault Refusal := s.run (.mmov o) (doPort .mov o)
def execMfadd (o : CP) (s : State) : Host.Outcome State Fault Refusal := s.run (.mfadd o) (doPort .fadd o)
def execMfmul (o : CP) (s : State) : Host.Outcome State Fault Refusal := s.run (.mfmul o) (doPort .fmul o)
def execMfmax (o : CP) (s : State) : Host.Outcome State Fault Refusal := s.run (.mfmax o) (doPort .fmax o)

/-! Sends (07 R176) and the port VC (R177) -/

def doSend (o : CR) (ws : State → List Word64) (s : State) : State :=
  let g := s.focus.tile
  let vc := o.rd % 16
  let n := s.getXn o.rs1 % 17179869184
  let l := ws s
  if s.heldOrder g s.focus.thread clsW (homeOfName n) then s.waitHere
  else if !s.canInject g vc ((l.length + 1) / 2) then s.sleep 1 0 (16 + vc)
  else
    (s.sendFrom g s.focus.thread n (homeOfName n) vc 1 ((l.length + 1) / 2) false 0 0 0 (.stream l)).retire o.s

def execSend (o : CR) (s : State) : Host.Outcome State Fault Refusal := s.run (.send o) (doSend o (fun s => [s.getX o.rs2]))

/-- The eight doublewords of a v register, byte 0 first. -/
def vWords (v : VWord) : List Word64 := (List.range 8).map (fun i => BitVec.ofNat 64 (v.toNat / 2 ^ (64 * i)))

def execSendv (o : CR) (s : State) : Host.Outcome State Fault Refusal := s.run (.sendv o) (doSend o (fun s => vWords (s.getV o.rs2)))

/-- X[rs1] is read before X[rd] is written (DESIGN CHOICE for rd = rs1, assumption 91). -/
def execMvc (o : CR) (s : State) : Host.Outcome State Fault Refusal :=
  s.run (.mvc o) (fun s =>
    let n := s.getXn o.rs1 % 16
    let old := s.me.r.mvc
    ((s.modMe (fun t => t.modRegs (fun r => if n < 12 then { r with mvc := n } else r))).putXn o.rd old).retire o.s)

/-! Stream bindings (07 R179) -/

def execQbind (o : CR) (s : State) : Host.Outcome State Fault Refusal :=
  s.run (.qbind o) (fun s =>
    let vc := s.getXn o.rs2 % 16
    if 12 ≤ vc then s.illegal
    else (s.modMe (fun t => t.modRegs (·.bindQ (o.rd % 8) ⟨true, vc, s.getXn o.rs1 % 17179869184⟩))).retire o.s)

def execQfree (o : CR) (s : State) : Host.Outcome State Fault Refusal :=
  s.run (.qfree o) (fun s => (s.modMe (fun t => t.modRegs (·.bindQ (o.rd % 8) {}))).retire o.s)

def execQcount (o : CR) (s : State) : Host.Outcome State Fault Refusal :=
  s.run (.qcount o) (fun s =>
    let b := s.me.r.qbind.look (o.rs1 % 8) {}
    (s.putXn o.rd (if b.v then (s.myTile.e.store.filter b.matches).length else 0)).retire o.s)

def execQpopv (o : CR) (s : State) : Host.Outcome State Fault Refusal :=
  s.run (.qpopv o) (fun s =>
    let b := s.me.r.qbind.look (o.rs1 % 8) {}
    if !b.v then s.illegal
    else if s.heldOrder s.focus.tile s.focus.thread clsR s.focus.tile then s.waitHere
    else s.longLatency (fun s => ((s.addPend ⟨true, o.rd, 0, 0, .words b, false⟩).modMyTile Tile.feed).retire o.s))

/-! Routing (07 R154, R158 to R161, R168 to R170) -/

/-- The VCs and kinds of 07 R157. -/
def kindVcOk (kind vc : Nat) : Bool :=
  match kind with
  | 0 | 1 => decide (vc ≤ 11)
  | 2 => vc == 12
  | 3 | 5 => vc == 13
  | 4 => vc == 14
  | _ => decide (kind ≤ 9) && vc == 15

/-- Words of the stream store that messages ejected already will take. -/
def HomeSt.streamWords (q : HomeSt) : Nat :=
  (q.inbox.map (fun m => match m.body with | .stream ws => ws.length | .mem _ => if m.kind = 1 then 1 else 0 | _ => 0)).foldl (· + ·) 0

/-- Landing packets that have been ejected and have not entered the landing queue. -/
def HomeSt.packets (q : HomeSt) : Nat := (q.inbox.filter (fun m => match m.body with | .packet _ _ _ _ _ => true | _ => false)).length

/-- Has the landing queue of a tile no place for a further packet (15 R324)? -/
def State.landFull (s : State) (h : Nat) : Bool := isTileHome h && decide (4 ≤ (s.tile h).e.landQ.length + (s.home h).packets)

/-- The router does not eject the message: a FIFO, the stream store or the landing queue is full, a record waits at the ingress for its
queue (07 R154, R175, R178, 08 R188, 15 R324), or the home cannot inject an answer (07 R155). -/
def State.ejectFull (s : State) (m : Msg) (port : Nat) (esc : Bool) : Bool :=
  let h := m.dstHome
  let q := s.home h
  let answerFull := decide (m.vc = 13) && !s.homeRoom h 14 4
  match m.body with
  | .portWord _ _ => decide (16 ≤ ((s.tile h).e.fifo.look port []).length +
      (q.inbox.filter (fun x => match x.body with | .portWord _ p => p == port | _ => false)).length)
  | .stream _ => decide (256 ≤ (s.tile h).e.store.length + q.streamWords)
  | .mem _ => if m.kind = 1 then decide (256 ≤ (s.tile h).e.store.length + q.streamWords) else answerFull
  | .task _ _ _ _ => q.inbox.any (fun x => x.vc == 12 && x.route == some (port, esc, false))
  | .packet _ _ _ _ _ => s.landFull h || answerFull
  | .copyLine _ _ _ _ => s.landFull h || answerFull
  | _ => false

/-- The ingress check of the destination's cluster (07 R170). -/
def State.ingressRefusal (s : State) (from_ to_ : Nat) (m : Msg) : Option Nat :=
  let c := clusterOf to_
  -- messages between tiles of one cluster are not checked, whatever way they take
  if isTileHome m.dstHome && clusterOf m.dstHome == c && clusterOf from_ != c && !(isTileHome m.srcHome && clusterOf m.srcHome == c) then
    if !grants (s.cluster c).access m.region (rightsOf m) then some (if m.kind = 2 then 4 else 5)
    else match m.body with
      -- a record also needs the bit of its queue in LRIGHT of its sender's region (08 R188)
      | .task _ _ d2 _ => if (s.cluster c).lright.look m.region 0 / 2 ^ (d2 / 262144 % 16) % 2 = 0 then some 4 else none
      | _ => none
  else none

/-- Scale-out port at a coordinate, by side (20 R416). -/
def scaleOutAt (g port : Nat) : Bool :=
  let y := yOf g
  let x := xOf g
  match port with
  | 0 => y == 0 && x % 64 == 32
  | 1 => x == 767 && y % 64 == 32
  | 2 => y == 767 && x % 64 == 32
  | _ => x == 0 && y % 64 == 32

def oxsorKey (src dst : Nat) : Nat := src * 64 + dst

/-- Where a message that leaves by port `out` of router `g` comes to on its wafer: the coordinate and port, and its kind of buffer. -/
def oxsorSpot (g out : Nat) (esc : Bool) : Option (Nat × Bool × Bool) := some (g % waferTiles * 4 + out, esc, false)

/-- Has the path a credit for a message: will the input buffer at its far end take it after those of its VC that are under way (20 R417)? -/
def State.oxsorRoom (s : State) (g out : Nat) (esc : Bool) (m : Msg) : Bool :=
  let p := s.oxsor.look (oxsorKey (waferOf g) (homeWafer m.dstHome)) {}
  let far := (s.tile (homeWafer m.dstHome * waferTiles + g % waferTiles)).rt
  fitsBuf (if esc then 4 else 8)
    (far.bufs.look (bufKey out m.vc esc) [] ++ p.queue.filter (fun x => x.vc == m.vc && x.route == oxsorSpot g out esc)) m.len

/-- Does a memory port or a scale-out port attach to a side of the router (20 R414, R416)? -/
def bridgeAt (g port : Nat) : Bool :=
  scaleOutAt g port || (List.range 32).any (fun i => edgeCoord (32 * port + i) == (yOf g, xOf g))

/-- The homes that inject through an input port of a router. -/
def homesAt (g port : Nat) : List Nat :=
  if port = 4 then
    (if !islandSlot (clusterOf g) then [g] else if islandCorner (islandOf g) = (yOf g, xOf g) then [islandHome (islandOf g)] else [])
  else (List.range 32).filterMap (fun i =>
    if edgeCoord (32 * port + i) = (yOf g, xOf g) then some (edgeHome (waferOf g) (32 * port + i)) else none)

/-- What waits for room in an input port's buffers enters as far as it can: messages of hardware, then accesses of the tile. -/
def State.refill (s : State) (g port : Nat) : State :=
  let s := (homesAt g port).foldl (fun s h => s.flushOut h) s
  if port = 4 then s.pump g else s

/-- The head of an input buffer leaves it; what waits to be injected follows into the buffer. -/
def State.popBuf (s : State) (g port vc : Nat) (esc : Bool) : State :=
  let s := s.modTile g (fun t => t.modRouter (fun r => { r with bufs := r.bufs.modify (bufKey port vc esc) [] (fun l => l.drop 1) }))
  s.refill g port

/-- An ejected message keeps the input buffer it came from; a port word learns the port it arrives through. -/
def Msg.through (m : Msg) (port : Nat) (esc : Bool) : Msg :=
  match m.body with
  | .portWord v _ => { m with body := .portWord v port, route := some (port, esc, false) }
  | _ => { m with route := some (port, esc, false) }

/-- A message bound over a path that is down (20 R417). A leaven return that cannot reach its root makes the domain LOST (10 R253). -/
def State.pathLost (s : State) (g : Nat) (m : Msg) : State :=
  if m.kind = 6 then (s.loseWeight (homeWafer m.dstHome * 256 + m.region) (m.aux % 64)).notice (islandOf g) 0x40 (m.aux % 64)
  else s.refuse g m 5

/-! The router's choice (07 R154, R158 to R161) -/

/-- What can become of the head of an input buffer. -/
inductive Way where
  /-- it holds its place: the next place has no room, or its link is down -/
  | stay
  | eject
  | refuse
  /-- over an Oxsor path to another wafer -/
  | over
  /-- its path to another wafer is down -/
  | lost
  | next (n : Nat)
  deriving DecidableEq, Repr

/-- The way of a message that stands at the head of buffer (port, vc, esc) of router `g`, over the output that it chose. -/
def State.wayOf (s : State) (g port : Nat) (esc : Bool) (m : Msg) : Way :=
  let (out, esc', ovr) := m.route.getD (s.routeOf g esc m.dstHome)
  if !kindVcOk m.kind m.vc then .refuse
  else if out = 4 then
    -- a closed port refuses at once (16 R352)
    if isTileHome m.dstHome && (s.tile m.dstHome).rt.closed then .eject
    else if s.ejectFull m port esc || (isTileHome m.dstHome && (s.tile m.dstHome).c.proofing) ||
      (match sideOf m.dstHome with | some p => s.linkIsDown g p | none => false) then .stay else .eject
  else if out = 5 then .refuse
  else if scaleOutAt g out && homeWafer m.dstHome != waferOf g then
    if ovr && s.linkIsDown g out then .refuse
    else if (s.oxsor.look (oxsorKey (waferOf g) (homeWafer m.dstHome)) {}).down then .lost
    else if s.linkIsDown g out || !s.oxsorRoom g out esc' m then .stay else .over
  else if s.noLink g out || (ovr && s.linkIsDown g out) then .refuse
  else if s.linkIsDown g out then .stay
  else match neighbour g out with
    | none => .refuse
    | some n =>
      if (s.tile n).rt.stoppedRouter ||
        !fitsBuf (if esc' then 4 else 8) ((s.tile n).rt.bufs.look (bufKey (opposite out) m.vc esc') []) m.len then .stay
      else .next n

/-- The VCs whose heads are ready for an output of router `g`. -/
def State.readyVcs (s : State) (g out : Nat) : List Nat :=
  (s.tile g).rt.bufs.filterMap (fun b => match b.2 with
    | [] => none
    | m :: _ =>
      let esc := b.1 % 2 == 1
      if (m.route.getD (s.routeOf g esc m.dstHome)).1 ≠ out then none
      else match s.wayOf g (b.1 / 32) esc m with
        | .eject => some m.vc
        | .over => some m.vc
        | .next _ => some m.vc
        | _ => none)

/-- Does an output serve the VC next (07 R154): VC 15, 14, 13, 12, then the program VCs in turn; after 16 messages of VCs 12 to 15 a
program message that is ready? The turn begins with VC 0 (DESIGN CHOICE, assumption 86). -/
def State.served (s : State) (g out vc : Nat) : Bool :=
  let rt := (s.tile g).rt
  let vcs := s.readyVcs g out
  let turn (v : Nat) : Nat := (v + 23 - rt.turn.look out 11) % 12
  let mustYield := decide (16 ≤ rt.streak.look out 0) && vcs.any (fun v => decide (v < 12))
  if 12 ≤ vc then !mustYield && vcs.all (fun v => decide (v ≤ vc))
  else (mustYield || vcs.all (fun v => decide (v < 12))) && vcs.all (fun v => decide (12 ≤ v) || decide (turn vc ≤ turn v))

/-- The output has served a message of the VC. -/
def State.serve1 (s : State) (g out vc : Nat) : State :=
  s.modTile g (fun t => t.modRouter (fun r =>
    if 12 ≤ vc then { r with streak := r.streak.modify out 0 (· + 1) }
    else { r with streak := r.streak.put out 0, turn := r.turn.put out vc }))

/-- The message crosses a link to router `n`, which checks it where it enters its destination's cluster. -/
def State.cross (s : State) (g n out : Nat) (esc : Bool) (m : Msg) : State :=
  let s := s.modTile n (fun t => t.modRouter (fun r => { r with replays := r.replays.del (opposite out) }))
  match s.ingressRefusal g n m with
  | some r => s.refuse n m r
  | none => s.arrive n (opposite out) esc m

/-- The message waits at the edge bridge for its frame; it keeps where it left its own wafer, and its kind of buffer. -/
def State.toOxsor (s : State) (g out : Nat) (esc : Bool) (m : Msg) : State :=
  let k := oxsorKey (waferOf g) (homeWafer m.dstHome)
  let p := s.oxsor.look k {}
  { s with oxsor := s.oxsor.put k { p with queue := p.queue ++ [{ m with route := oxsorSpot g out esc }],
                                           since := if p.queue.isEmpty then s.now else p.since } }

/-- MESSAGE_ROUTE: the router in focus takes the head of an input buffer, where it can move and its output serves its VC; an empty buffer takes
what waits for it. -/
def execMessageRoute (port vc : Nat) (esc : Bool) (s : State) : Host.Outcome State Fault Refusal :=
  let g := s.focus.tile
  .next (match (s.tile g).rt.bufs.look (bufKey port vc esc) [] with
    | [] => if (s.tile g).rt.stoppedRouter then s else s.refill g port
    | m :: _ =>
      if (s.tile g).rt.stoppedRouter then s
      else
        let (out, esc', _) := m.route.getD (s.routeOf g esc m.dstHome)
        let way := s.wayOf g port esc m
        match way with
        | .stay => s
        | .refuse => (s.popBuf g port vc esc).refuse g m 5
        | .lost => (s.popBuf g port vc esc).pathLost g m
        | way =>
          if !s.served g out m.vc then s
          else
            let s := (s.serve1 g out m.vc).popBuf g port vc esc
            match way with
            | .over => s.toOxsor g out esc' m
            | .next n => s.cross g n out esc' m
            | _ => match s.ejectRefusal m with
              | some r => s.refuse g m r
              | none => s.accept (m.through port esc))

/-! Arrivals at a tile (07 R175, R178) -/

/-- Takes the first message of a home's inbox that `p` picks. -/
def takeMsg (p : Msg → Bool) : List Msg → Option (Msg × List Msg)
  | [] => none
  | m :: r => if p m then some (m, r) else match takeMsg p r with
    | some (x, r') => some (x, m :: r')
    | none => none

/-- PORT_WORD: the oldest ejected port word whose FIFO has room enters it. -/
def execPortWord (s : State) : Host.Outcome State Fault Refusal :=
  let g := s.focus.tile
  let fits (m : Msg) : Bool := match m.body with
    | .portWord _ p => decide (((s.tile g).e.fifo.look p []).length < 16)
    | _ => false
  .next (match takeMsg fits (s.home g).inbox with
    | some (m, rest) => match m.body with
      | .portWord v p => (s.modHome g (fun q => { q with inbox := rest })).modTile g (fun t =>
          t.modEng (fun e => { e with fifo := e.fifo.modify p [] (fun l => l ++ [(v, m.sent)]) }))
      | _ => s
    | none => s)

/-- Does a message bring stream data to a tile: a `send`, or a store to window 7 (12 R268)? -/
def Msg.isStream (m : Msg) : Bool := match m.body with | .stream _ => true | .mem _ => m.kind == 1 | _ => false

/-- STREAM_DATA: the words of the oldest ejected stream data, where they are a `send`'s, enter the store as far as it has room; words enter in
the order of their arrival (07 R178). -/
def execStreamData (s : State) : Host.Outcome State Fault Refusal :=
  let g := s.focus.tile
  .next (match takeMsg Msg.isStream (s.home g).inbox with
    | some (m, rest) => match m.body with
      | .stream ws =>
        let room := 256 - (s.tile g).e.store.length
        let inbox := if ws.length ≤ room then rest
          else (s.home g).inbox.map (fun x => if x == m then { x with body := .stream (ws.drop room) } else x)
        (s.modHome g (fun q => { q with inbox := inbox })).modTile g (fun t =>
          (t.modEng (fun e => (ws.take room).foldl (fun e w => pushStream e ⟨w, m.vc, m.src, m.sent⟩) e)).feed)
      | _ => s
    | none => s)

/-- LONG_LATENCY_PARK_RESUME (01 R24): every pending write of a parked thread has been performed. -/
def execLongLatencyParkResume (s : State) : Host.Outcome State Fault Refusal :=
  let g := s.focus.tile
  let h := s.focus.thread
  .next (if s.me.run.ts == .parked && s.me.pendDone then
      (s.modTile g (·.commitPend h)).modMe (fun t => t.modRun (fun r => { r with ts := .running, wait := none }))
    else s)

/-! Links (07 R164, R165) and their registers -/

/-- Is there a link on a side of the router: to a neighbour, or to an edge bridge (18 R381)? -/
def hasLink (g port : Nat) : Bool := decide (port < 4) && ((neighbour g port).isSome || bridgeAt g port)

/-- FLIT_CRC_REPLAY: the receiver of the router in focus finds a mismatch on a link and requests a replay. -/
def execFlitCrcReplay (port : Nat) (s : State) : Host.Outcome State Fault Refusal :=
  .next (if !hasLink s.focus.tile port then s
    else s.modMyTile (fun t => t.modRouter (fun r =>
      { r with retries := r.retries.modify port 0 (fun n => min (n + 1) 4294967295), replays := r.replays.modify port 0 (· + 1) })))

/-- A router marks a link down and reports. -/
def State.markDown (s : State) (g p : Nat) : State :=
  (s.modTile g (fun t => t.modRouter (fun r => { r with linkDown := r.linkDown.put p true, replays := r.replays.del p }))).reportTile g 0x23 p 0

/-- LINK_DOWN: after 8 failed replays both routers mark the link down and report; an edge bridge is no router
(DEDUCED, assumption 106). -/
def execLinkDown (port : Nat) (s : State) : Host.Outcome State Fault Refusal :=
  let g := s.focus.tile
  .next (if !hasLink g port ∨ s.myTile.rt.replays.look port 0 < 9 then s
    else match neighbour g port with
      | none => s.markDown g port
      | some n => (s.markDown g port).markDown n (opposite port))

/-- An island repair clears the marks of a router's links, at both ends (07 R165). -/
def State.linksUp (s : State) (g : Nat) : State :=
  ([0, 1, 2, 3] : List Nat).foldl (fun s p =>
    match neighbour g p with
    | some n => s.modTile n (fun t => t.modRouter (fun r => { r with linkDown := r.linkDown.del (opposite p), replays := r.replays.del (opposite p) }))
    | none => s) (s.modTile g (fun t => t.modRouter (fun r => { r with linkDown := [], replays := [] })))

/-- LINK_STAT of a port (R165). -/
def linkStatWord (rt : Router) (port : Nat) : Nat := bit (rt.linkDown.look port false) 63 + rt.retries.look port 0

/-- A read of LINK_STAT returns and clears RETRIES. -/
def execLinkStatRead (port : Nat) (s : State) : Host.Outcome State Fault Refusal :=
  .next ({ s with ioRead := linkStatWord s.myTile.rt port }.modMyTile (fun t =>
    t.modRouter (fun r => { r with retries := r.retries.del port })))

/-- The messages a router holds for a down link choose their output again (07 R161). -/
def State.reroute (s : State) (g : Nat) : State :=
  let again (esc : Bool) (m : Msg) : Msg :=
    match m.route with
    | some (out, _, _) => if out < 4 ∧ s.linkIsDown g out then { m with route := some (s.routeOf g esc m.dstHome) } else m
    | none => m
  s.modTile g (fun t => t.modRouter (fun r => { r with bufs := r.bufs.map (fun b => (b.1, b.2.map (again (b.1 % 2 == 1)))) }))

/-- ROUTE_OVR_WRITE (07 R160). -/
def State.writeOvr (s : State) (entry value : Nat) : State :=
  let g := s.focus.tile
  let v := BitVec.ofNat 64 (value / 16384 * 16384)
  if 16 ≤ entry then s
    else
      if islandSlot (clusterOf g) then
        -- the pass-through routers of an island slot share the island's registers
        let s := s.modIsland (islandOf g) (fun i => { i with ovr := i.ovr.put entry v })
        (s.tiles.filter (fun p => clusterOf p.1 == clusterOf g)).foldl (fun s p => s.reroute p.1) s
      else (s.modTile g (fun t => t.modRouter (fun r => { r with ovr := r.ovr.put entry v }))).reroute g

def execRouteOvrWrite (entry value : Nat) (s : State) : Host.Outcome State Fault Refusal := .next (s.writeOvr entry value)

end Sys2Proof.Machine
end

