-- ==== Sys2Proof/Machine/Life.lean ====
section
/-!
DEFINITION. The start and the end of what a thread runs (01 R6, R26 to R28, 04 R90, 08 R193, R196), and the dissolution of a gathering
(09 R229).
-/
namespace Sys2Proof.Machine

/-! Availability of a tile (08 R205, 16 R343, 18 R384, R392) -/

/-- A tile on which nothing is dispatched: a hole, quarantined or dead, stopped by a fault, in or before a proofing pass, without a
locked clock, or on a wafer in the safe state (21 R421). -/
def State.withheld (s : State) (g : Nat) : Bool :=
  let c := (s.tile g).c
  c.hole || c.quarantined || c.dead || c.stopped || c.proofing || c.proofDue || c.clkLost || !(s.wafer (waferOf g)).locked ||
  (s.wafer (waferOf g)).bootSafe ||
  (s.cluster (clusterOf g)).off

/-- Is the thread IDLE? A claimed member of a gathering never is, a LEFT one too (09 R232). -/
def Run.isIdle (r : Run) : Bool := r.ts == .idle && r.gather.role == .solo

/-- Can a dispatch or a claim take the thread: IDLE and not reserved? -/
def State.takeable (s : State) (g h : Nat) : Bool :=
  let r := (s.thread g h).run
  r.isIdle && !r.chosen && !s.withheld g

/-! Ending -/

/-- The thread is IDLE: nothing of what it ran is left but its registers and its posted accesses, whose answers write nothing. -/
def Thread.idled (t : Thread) : Thread :=
  { t with run := { t.run with
      ts := .idle, heldTs := .idle, chosen := false, task := none, pend := [],
      outs := t.run.outs.map (fun o => { o with dst := if o.dst == .nowhere then .nowhere else .gone, bad := none }),
      seen := [], readAt := [], accFailed := false, due := [], lrAddr := none, npd := 0, secTime := 0, npOver := false, wait := none, rep := none, xl := [], give := .none,
      phase := 0, phaseVal := 0, fwdDone := false, answer := none, stop := {}, gather := {} } }

/-- A thread becomes IDLE: its reservation and watches fall (04 R78, 14 R304), a wake that it stalled on is no longer asked for (19 R403), and
the policy engine is told (08 R193, R200). -/
def State.idleThread (s : State) (g h : Nat) : State :=
  (((((s.endStall g h).dropThreadAt g h).dropWalks g h).modThread g h Thread.idled).signalIdle g h).noteDebt (s.regionOf g)

/-- The accesses of a thread that its router has not taken are discarded (17 R370), or leave the tile with the thread's context. -/
def State.dropUnsent (s : State) (g h : Nat) : State :=
  let mine (u : Unsent) : Bool := u.msg.sthr == h
  let us := (s.tile g).e.unsent.filter mine
  let waits (id : Nat) (x : OutPart) : Bool := us.any (fun u => match u.msg.body with
    | .mem q => q.id == id && q.lane == x.lane && u.msg.dstHome == x.home
    | _ => false)
  let s := s.modTile g (fun t => t.modEng (fun e => { e with unsent := e.unsent.filter (fun u => !mine u) }))
  s.modThread g h (fun t => t.modRun (fun r =>
    { r with outs := (r.outs.map (fun o => { o with parts := o.parts.filter (fun x => !waits o.id x) })).filter (fun o => !o.parts.isEmpty) }))

/-! Starting -/

/-- A task of another region than the last one finds the kept registers zeroed and the bindings released (01 R28). -/
def State.cleanFor (s : State) (g h region : Nat) : State :=
  match (s.thread g h).run.lastRegion with
  | none => s
  | some r =>
    if r = region then s
    else
      let s := s.modThread g h (fun t => t.modRegs (fun q => { q with errword := {}, qbind := [] }))
      if h = 0 then s.modTile g (fun t => t.modRegs (fun _ => {})) else s

/-- The generator at the first task start of a thread in a region (04 R90). -/
def State.seedFor (s : State) (g h region : Nat) : State :=
  if (s.thread g h).run.seeded = some region then s
  else
    let st := seedState (s.region region).seed (g * 3 + h)
    s.modThread g h (fun t => { r := { t.r with s0 := st.1, s1 := st.2 }, run := { t.run with seeded := some region } })

/-- What the hardware keeps of a thread at a start: it runs, with nothing pending. The start is a synchronising read (01 R20): what was
complete when its record was sent, at `acq`, is known. -/
def Run.started (r : Run) (region perf acq : Nat) : Run :=
  { ts := .running, outs := r.outs, lastRegion := some region, seeded := r.seeded, seq := r.seq, stale := r.stale, acq := acq, oacq := perf,
    dbg := { trace := r.dbg.trace } }

/-- Registers at a task start (01 R7, R12, R26): all zero but those that are kept and those that the record sets. -/
def Regs.started (r : Regs) (pc : Word64) (frame sw : Nat) : Regs :=
  { pc := pc, x := [(10, BitVec.ofNat 64 frame), (11, BitVec.ofNat 64 sw)], instret := r.instret, qbind := r.qbind,
    errword := r.errword, s0 := r.s0, s1 := r.s1 }

/-! Fields of a record (08 R180) -/

def recQueue (d2 : Nat) : Nat := d2 / 262144 % 16
def recPrio (d2 : Nat) : Nat := d2 / 4194304 % 16
def recRegion (d2 : Nat) : Nat := d2 / 67108864 % 256
def recLv (d2 : Nat) : Bool := d2 / 17179869184 % 2 == 1
def recLexp (d2 : Nat) : Nat := d2 / 34359738368 % 64
def recDom (d2 : Nat) : Nat := d2 / 2199023255552 % 64
def recSpread (d2 : Nat) : Bool := d2 / 140737488355328 % 2 == 1
def recNarrow (d2 : Nat) : Bool := d2 / 131072 % 2 == 1
def recCode (d2 : Nat) : Nat := d2 % 131072
def recSw (d2 : Nat) : Nat := d2 / 281474976710656 % 65536
def recJv (d1 : Nat) : Bool := d1 / 9223372036854775808 % 2 == 1
def recJaddr (d1 : Nat) : Nat := d1 % 288230376151711744

/-- Doubleword 2 with the fields that the hardware sets (08 R181). -/
def recWith (d2 region : Nat) (lv : Bool) (lexp dom : Nat) : Nat :=
  let d := d2 - d2 / 67108864 % 2097152 * 67108864
  d + region % 256 * 67108864 + (if lv then 17179869184 + lexp % 64 * 34359738368 + dom % 64 * 2199023255552 else 0)

/-- Malformed records (08 R181). -/
def recBad (d1 d2 : Nat) : Bool :=
  let a := recJaddr d1
  decide (recCode d2 % 4 ≠ 0) || decide (d1 / 288230376151711744 % 32 ≠ 0) ||
  (recJv d1 && (decide (a / 1048576 % 16 ≠ 0) || decide (a % 8 ≠ 0) || decide (0x20000 < a % 1048576 + 40)))

/-- A record starts on a thread (08 R196, 01 R26). -/
def State.startTask (s : State) (g h : Nat) (tr : TaskRec) : State :=
  let region := waferOf g * 256 + recRegion tr.dw2
  let s := (s.cleanFor g h region).seedFor g h region
  let s := if h = 0 then s.modTile g (fun t => t.modRegs (·.setP 0 (BitVec.allOnes 64))) else s
  let lv := recLv tr.dw2
  s.modThread g h (fun t =>
    { r := { t.r.started (s.pcAt g (recCode tr.dw2)) tr.frame (recSw tr.dw2) with
               weight := if lv then shareOf (recLexp tr.dw2) else 0, qwV := lv, qwDom := if lv then recDom tr.dw2 else 0 },
      run := { t.run.started region s.perf tr.sent with task := some ⟨tr, s.guestTime region, s.now, 0⟩ } })

/-! Gatherings: members and dissolution (09 R220, R229) -/

/-- The tiles of the gathering led by tile `g` whose member has a given role, the leader not counted. -/
def State.membersIn (s : State) (g : Nat) (r : Role) : List Nat :=
  let n := (s.thread g 0).run.gather.size
  ((List.range n).map (fun k => g + k)).filter (fun m =>
    let ga := (s.thread m 0).run.gather
    m != g && ga.role == r && ga.leader == g && !ga.dissolved)

/-- The detached followers of a gathering of `n` led by tile `g` that has dissolved under them. -/
def State.strays (s : State) (g n : Nat) : List Nat :=
  ((List.range n).map (fun k => g + k)).filter (fun m =>
    let ga := (s.thread m 0).run.gather
    ga.dissolved && ga.leader == g && ga.size == n)

/-- The gathering of leader `g` is at an end: LEFT members become IDLE, detached ones run on alone, the leader is SOLO. -/
def State.dissolve (s : State) (g : Nat) : State :=
  let left := s.membersIn g .left
  let det := s.membersIn g .detached
  let s := left.foldl (fun s m => s.idleThread m 0) s
  let s := det.foldl (fun s m => s.modThread m 0 (fun t => t.modRun (fun r => { r with gather := { r.gather with dissolved := true } }))) s
  s.modThread g 0 (fun t => t.modRun (fun r => { r with gather := {} }))

/-- The gathering ends with its leader's task: attached members become IDLE at once (16 R346, R349). -/
def State.breakUp (s : State) (g : Nat) : State :=
  ((s.membersIn g .attached).foldl (fun s m => s.idleThread m 0) s).dissolve g

end Sys2Proof.Machine
end

