-- ==== Sys2Proof/Machine/Queues.lean ====
section
/-!
DEFINITION. The cluster queues: places, spill rings, admission, and the events that an enqueue raises (08 R183 to R187, R200).
-/
namespace Sys2Proof.Machine

/-! Queues (08 R183, R184) -/

def onChip : Nat := 256

/-- QSPILL: the spill places of each queue, the tile, the base (08 R214). -/
def Cluster.spillN (c : Cluster) : Nat := if c.qspill / 9223372036854775808 % 2 = 1 then c.qspill / 4294967296 % 65536 else 0
def Cluster.spillTile (c : Cluster) : Nat := c.qspill / 281474976710656 % 256
def Cluster.spillBase (c : Cluster) : Nat := c.qspill % 131072

def Cluster.queue (c : Cluster) (q : Nat) : List QRec := c.queues.look q []
def Cluster.setQueue (c : Cluster) (q : Nat) (l : List QRec) : Cluster := { c with queues := c.queues.put q l }

/-- Free places of a queue (R183). -/
def Cluster.free (c : Cluster) (q : Nat) : Nat := onChip + c.spillN - (c.queue q).length

/-- Memory key of a spill place. -/
def spillKey (s : State) (c q idx : Nat) : Nat :=
  let k := s.cluster c
  padKey (tileIn c k.spillTile) (k.spillBase + 32 * (k.spillN * q + idx))

/-- A record to its spill place: a write like any other (14 R303). -/
def State.writeSpill (s : State) (c q idx : Nat) (t : TaskRec) : State :=
  let k := s.cluster c
  let g := tileIn c k.spillTile
  s.storeAt g (k.spillBase + 32 * (k.spillN * q + idx)) (natBytes 8 t.frame ++ natBytes 8 t.dw1 ++ natBytes 8 t.dw2) g 3

/-- A record back from its spill place: its three doublewords as the ring holds them (R184). -/
def State.readSpill (s : State) (c q idx : Nat) (t : TaskRec) : TaskRec :=
  let a := spillKey s c q idx
  { t with frame := s.mem.readNat a 8, dw1 := s.mem.readNat (a + 8) 8, dw2 := s.mem.readNat (a + 16) 8 }

/-- The threads of a cluster. -/
def clusterThreads (c : Nat) : List (Nat × Nat) := ((clusterTiles c).map (fun g => [(g, 0), (g, 1)])).flatten

/-- A record becomes QUEUED in queue `q`: an enqueue event, while a thread of a live tile is IDLE (08 R200). -/
def State.queuedEvent (s : State) (c q : Nat) : State :=
  let live (g : Nat) : Bool := let k := (s.tile g).c; !k.hole && !k.quarantined && !k.dead
  if (clusterThreads c).any (fun x => live x.1 && (s.thread x.1 x.2).run.isIdle) then s.raise c ⟨0, 0, q, 0, 0⟩ else s

/-- The ring place of a queue's next record; none while it goes on chip. -/
def Cluster.ringTail (k : Cluster) (q : Nat) : Option Nat :=
  let l := k.queue q
  let spilled := l.filterMap (fun r => r.spill)
  if spilled.isEmpty && decide (l.length < onChip) then none
  else some (match spilled.getLast? with | some i => (i + 1) % max k.spillN 1 | none => 0)

/-- Is a ring place under a claim, which holds back the cluster's own accesses too (13 R291)? -/
def State.ringHeld (s : State) (c q idx : Nat) : Bool :=
  let k := s.cluster c
  s.claimed (tileIn c k.spillTile) (k.spillBase + 32 * (k.spillN * q + idx)) 24

/-- A record at the tail of a queue, on chip or in the ring. -/
def State.placeRec (s : State) (c q : Nat) (t : TaskRec) : State :=
  let l := (s.cluster c).queue q
  match (s.cluster c).ringTail q with
  | none => (s.modCluster c (fun k => k.setQueue q (l ++ [⟨t, none, 0⟩]))).queuedEvent c q
  | some idx => (s.writeSpill c q idx t).modCluster c (fun k => k.setQueue q (l ++ [⟨t, some idx, 0⟩]))

/-- Free places of a queue to a source: none while the ring place that comes next is under a claim (DEDUCED, assumption 137). -/
def State.places (s : State) (c q : Nat) : Nat :=
  match (s.cluster c).ringTail q with
  | some idx => if s.ringHeld c q idx then 0 else (s.cluster c).free q
  | none => (s.cluster c).free q

/-- A new record for a tile. -/
def State.newRec (s : State) (g frame d1 d2 : Nat) : TaskRec :=
  { frame := frame, dw1 := d1, dw2 := d2, target := if recSpread d2 then none else some (localOf g), enqueued := s.now,
    guest := s.guestTime (waferOf g * 256 + recRegion d2), sent := s.perf, reserved := false, resume := none }

/-- A record that was changed in the ring enters as an island launch does (R184), with the queue, the fields and the class of admission of
one; with SPREAD newly 0 its tile is the ring's (DEDUCED, assumption 95). -/
def State.changedRec (s : State) (c : Nat) (t : TaskRec) : TaskRec :=
  let l := t.target.getD (s.cluster c).spillTile
  { s.newRec (tileIn c l) t.frame t.dw1 t.dw2 with sent := t.sent }

/-- The share of a record that is dropped goes back to the root (10 R251). -/
def State.returnStaged (s : State) (c : Nat) (d2 : Nat) : State := if recLv d2 then s.returnShare c (recDom d2) (recLexp d2) else s

/-- The head of the ring moves to the on-chip tail; a malformed one is dropped with a report (R184), and the share that it names as it is read
back is returned (10 R251). -/
def State.refillOne (s : State) (c q : Nat) : State :=
  let l := (s.cluster c).queue q
  match l.find? (fun r => r.spill.isSome) with
  | none => s
  | some r =>
    if onChip ≤ (l.filter (fun x => x.spill.isNone)).length ∨ s.ringHeld c q (r.spill.getD 0) then s
    else
      let t := s.readSpill c q (r.spill.getD 0) r.tr
      let gone : State := s.modCluster c (fun k => k.setQueue q (l.filter (fun x => x.spill != r.spill)))
      let stay (t : TaskRec) : State :=
        (s.modCluster c (fun k => k.setQueue q (l.map (fun x => if x.spill = r.spill then { x with tr := t, spill := none } else x)))).queuedEvent c q
      let q' := recQueue t.dw2
      if t = r.tr then stay t
      else if recBad t.dw1 t.dw2 then (gone.returnStaged c t.dw2).notice (islandOfCluster c) 0x60 c
      else if q' = q then stay (s.changedRec c t)
      else if 16 < gone.places c q' then gone.placeRec c q' (s.changedRec c t)
      else
        -- an island launch that finds no room waits at the island
        (gone.modIsland (islandOfCluster c) (fun d => { d with heldRecs := d.heldRecs ++ [(c, s.changedRec c t)] })).notice (islandOfCluster c) 0x61 c

/-- A queue after a change: the ring's head moves up while places are free, and the first 16 on-chip records are marked. -/
def State.settle (s : State) (c q : Nat) : State :=
  let s := upTo ((s.cluster c).queue q).length (fun _ s => s.refillOne c q) s
  s.modCluster c (fun k => k.setQueue q (((k.queue q).zipIdx).map (fun (r, i) =>
    if i < 16 ∧ r.spill.isNone ∧ r.ripe = 0 then { r with ripe := s.now + 1 } else r)))

/-- Does a thread of the cluster's tile fit the record, with t0 allowed for narrow records or not (R186)? -/
def fits (c : Nat) (t : TaskRec) (nw : Bool) (g h : Nat) : Bool :=
  (match t.target with | none => true | some l => tileIn c l == g) && (if recNarrow t.dw2 then h == 1 || (nw && h == 0) else h == 0)

/-- The place of a cluster among a region's, in ascending order. -/
def clusterIndex (cs : List Nat) (c : Nat) : Nat := (cs.filter (fun d => decide (d < c))).length

/-- Physical address of a swap slot (17 R366). -/
def State.swapPa (s : State) (r c n : Nat) : Nat :=
  let q := s.region r
  q.swapBase + 16384 * (q.swapN * clusterIndex q.clusters c + n)

/-- Is a swap slot under a claim (13 R291)? Its bytes are neither written nor read then. -/
def State.slotClaimed (s : State) (r c n : Nat) : Bool := edgeClaimed s (r / 256) (s.swapPa r c n) 16384

/-- A gathering's members are restored together: a resume record needs every one of their threads (09 R233). -/
def State.resumeTiles (s : State) (c : Nat) (t : TaskRec) : List Nat :=
  match t.resume with
  | none => []
  | some k => match (s.region ((c / 3072) * 256 + (s.cluster c).region)).swaps.find k with
    | some w => w.members.map (fun m => w.tile + m.1)
    | none => []

/-- The thread a record takes: t1 of the targets before any t0, the lowest tile first (08 R206). A resume record, whose target R187 gives as
the evicted thread's tile, fits only the very thread evicted, NARROW and SPREAD or not (DESIGN CHOICE, assumption 116), once its copy
requests, which re-enter the FIFO of 8 (15 R321), find room there (DESIGN CHOICE, assumption 107), and no claim holds its slot (13 R291). -/
def State.choose (s : State) (c : Nat) (t : TaskRec) (nw : Bool) : Option (Nat × Nat) :=
  let tiles := match t.target with | none => clusterTiles c | some l => [tileIn c l]
  let ok (h g : Nat) : Bool := fits c t nw g h && s.takeable g h
  match t.resume with
  | some k => match (s.region ((c / 3072) * 256 + (s.cluster c).region)).swaps.find k with
    | some w =>
      if s.takeable w.tile w.thread && (k :: w.members.map (fun m => m.2)).all (fun n => !s.slotClaimed ((c / 3072) * 256 + (s.cluster c).region) c (n % 65536)) &&
        decide ((s.tile w.tile).e.copies.length + w.copies.length ≤ 8) &&
        (s.resumeTiles c t).all (fun m => s.takeable m 0) then some (w.tile, w.thread) else none
    | none => none
  | none =>
    match tiles.find? (ok 1) with
    | some g => some (g, 1)
    | none => (tiles.find? (ok 0)).map (fun g => (g, 0))

/-- A head record of higher priority than a running task whose thread it fits, with no fitting thread IDLE (08 R200). -/
def State.checkPriority (s : State) (c q : Nat) : State :=
  match (s.cluster c).queue q with
  | [] => s
  | r :: _ =>
    let p := recPrio r.tr.dw2
    let above (x : Nat × Nat) : Bool :=
      fits c r.tr true x.1 x.2 && !(s.thread x.1 x.2).run.isIdle &&
      (match s.taskAt x.1 x.2 with | some t => decide (recPrio t.tr.dw2 < p) | none => false)
    if (s.choose c r.tr true).isNone && (clusterThreads c).any above then s.raise c ⟨4, 0, q, 0, 0⟩ else s

/-- Every queue's head is looked at. -/
def State.checkHeads (s : State) (c : Nat) : State := upTo 16 (fun q s => s.checkPriority c q) s

/-- An enqueue. -/
def State.enqueueRec (s : State) (c q : Nat) (t : TaskRec) : State := ((s.placeRec c q t).settle c q).checkHeads c

/-- Does a tile hold its cluster's spill rings? -/
def State.ringTile (s : State) (g : Nat) : Bool :=
  isTileHome g && decide (0 < (s.cluster (clusterOf g)).spillN) && (s.cluster (clusterOf g)).spillTile == localOf g

/-- The rings of a tile whose claims have fallen move on. -/
def State.ringMoves (s : State) (g : Nat) : State :=
  if s.ringTile g then (upTo 16 (fun q s => s.settle (clusterOf g) q) s).checkHeads (clusterOf g) else s

/-- Room for an ordinary source (R183). -/
def State.roomFor (s : State) (c q : Nat) : Bool := decide (16 < s.places c q)

/-- A record of a source that may use the reserved places; with none free the island takes it (R185). -/
def State.enqueueReserved (s : State) (c q : Nat) (t : TaskRec) : State :=
  let t := { t with reserved := true }
  if 0 < s.places c q then s.enqueueRec c q t
  else
    let i := islandOfCluster c
    ((s.modCluster c (fun k => { k with qstatOvf := true })).modIsland i (fun d => { d with heldRecs := d.heldRecs ++ [(c, t)] })).notice i 0x61 c

end Sys2Proof.Machine
end

