-- ==== Sys2Proof/Machine/Gather.lean ====
section
/-!
DEFINITION. Gatherings (09): forming, rejoining, the wired barrier, leaving, and the masks. The forwarded stream is in Ops.lean, the
cross-member instructions in Members.lean.
-/
namespace Sys2Proof.Machine

/-! Forming (09 R222, R223) -/

def joinFail (reason : Nat) : Nat := 9223372036854775808 + reason

/-- The check of a claim of n tiles by the thread in focus: 0, or the reason of the failure. -/
def joinCheck (s : State) (n : Nat) : Nat :=
  let g := s.focus.tile
  let tiles := (List.range (n - 1)).map (fun k => g + 1 + k)
  if !(n == 1 || n == 2 || n == 4 || n == 8 || n == 16) then 1
  else if s.me.run.gather.role != .solo then 5
  else if n = 1 then 0
  else if localOf g % 16 % n ≠ 0 then 2
  else if tiles.any (fun m => s.withheld m || (s.thread m 0).run.ts == .stopped) then 4
  else if tiles.any (fun m => !s.takeable m 0) then 3
  else 0

/-- The registers a follower takes from its leader (R223). -/
def followerRegs (l o : Regs) (pc : Word64) : Regs :=
  { o with x := l.x, f := l.f, fflags := l.fflags, frm := l.frm, mvc := l.mvc, mstrideA := l.mstrideA, mstrideB := l.mstrideB,
           csrcS1 := l.csrcS1, csrcS2 := l.csrcS2, cdstS1 := l.cdstS1, cdstS2 := l.cdstS2, loop := l.loop, qwV := l.qwV,
           qwDom := l.qwDom, pc := pc, weight := 0, fxflags := 0 }

/-- The claim of member k. -/
def State.claimMember (s : State) (g n rd k : Nat) : State :=
  let m := g + k
  let region := waferOf g * 256 + s.taskRegionId g 0
  let l := (s.thread g 0).r
  let s := (s.cleanFor m 0 region).seedFor m 0 region
  let s := s.modTile m (fun t => t.modRegs (·.setP 0 (BitVec.allOnes 64)))
  s.modThread m 0 (fun t =>
    { r := (followerRegs l t.r (s.pcAt m (pcOff l.pc + 4))).setX rd (BitVec.ofNat 64 (16 * n + k)),
      run := { t.run.started region s.perf (s.thread g 0).run.acq with gather := { role := .attached, index := k, size := n, leader := g } } })

def doGjoin (o : CR) (s : State) : State :=
  let g := s.focus.tile
  let n := s.getXn o.rs1
  if !s.switched then s.switchFirst
  else
    let c := joinCheck s n
    let pend (v : Nat) : Pend := ⟨false, o.rd, v, 0, .done, false⟩
    if c ≠ 0 then (s.addPend (pend (joinFail c))).retire o.s
    else if n = 1 then (s.addPend (pend 16)).retire o.s
    else
      let s := ((List.range (n - 1)).foldl (fun s k => s.claimMember g n o.rd (k + 1)) s).checkHeads (clusterOf g)
      -- the followers take the words after this one, which is not forwarded
      ((s.modMe (fun t => t.modRun (fun r =>
        { r with gather := { role := .leader, index := 0, size := n, leader := g }, fwdDone := true }))).addPend (pend (16 * n))).retire o.s

def execGjoin (o : CR) (s : State) : Host.Outcome State Fault Refusal := s.run (.gjoin o) (doGjoin o)

/-! Rejoining (09 R227) -/

/-- Has a member performed every earlier word? Stores, sends and copies need only have been injected (09 R228). The rule does not say when a copy
is: it counts as injected with its acceptance into the copy FIFO, the point at which 13 R281 calls a `cqpush` complete (DESIGN CHOICE,
assumption 114). -/
def State.performedAll (s : State) (m : Nat) : Bool :=
  s.resultsIn m && (s.tile m).e.mq.isEmpty && !(s.tile m).e.unsent.any (fun u => u.msg.sthr == 0)

/-- Is every member where the leader's `grejoin` needs it? With no detached member it completes as `gsync` without the store rule (09 R235):
each member has performed its earlier words but for stores, sends and copies, of which nothing is asked (DEDUCED, assumption 94). -/
def State.grejoinReady (s : State) (g : Nat) : Bool :=
  (s.attachedOf g).all (s.waitsIn · inGrejoin) && (s.membersIn g .detached).all (s.waitsIn · inGrejoin) &&
  (!(s.membersIn g .detached).isEmpty || (g :: s.attachedOf g).all (fun m => s.resultsIn m && (s.tile m).e.mq.isEmpty))

/-- The reunion: the members that waited detached take the words after the leader's `grejoin`; each completes its own one, with its own S bit
(01 R24). -/
def State.reunite (s : State) (g : Nat) (sb : Bool) : State :=
  let att := s.attachedOf g
  let det := s.membersIn g .detached
  let next := pcOff (s.thread g 0).seqNext.r.pc
  let s := att.foldl (fun s m => s.completeJoint m sb) s
  let s := det.foldl (fun s m =>
    let s := s.completeJoint m ((s.thread m 0).run.phaseVal == 1)
    s.modThread m 0 (fun t => { r := { t.r with pc := pcWith t.r.pc next },
                                run := { t.run with gather := { t.run.gather with role := .attached, buf := [] } } })) s
  s.completeJoint g sb

/-! Leaving (09 R229) -/

/-- May a thread become IDLE: no access with a result outstanding (16 R338), the tile's matrix queue empty (06 R132, 08 R193)? -/
def State.mayEnd (s : State) : Bool := s.me.readsDone && s.myTile.e.mq.isEmpty

/-- The word that ends a thread counts (01 R11, 09 R225). -/
def Thread.counted (t : Thread) : Thread := { t with r := { t.r with instret := (t.r.instret + 1) % 18446744073709551616 } }

/-- A follower leaves: an attached one, or one whose gathering has dissolved, is IDLE; a detached one is LEFT and executes nothing more. -/
def leaveFollower (s : State) : State :=
  let ga := s.me.run.gather
  if !s.mayEnd then s.waitHere
  else
    let s := s.modMe Thread.counted
    if ga.role == .attached || ga.dissolved then s.idleThread s.focus.tile 0
    else ((s.dropThreadAt s.focus.tile 0).modMe Thread.idled).modMe (fun t =>
      t.modRun (fun r => { r with gather := { ga with role := .left, buf := [] } }))

/-! Rejoining: the instruction -/

def doGrejoin (o : CR) (s : State) : State :=
  let g := s.focus.tile
  let ga := s.me.run.gather
  match ga.role with
  | .leader => if s.grejoinReady g then s.reunite g o.s else s.waitJoint inGrejoin
  | .attached => s.waitJoint inGrejoin
  | .detached =>
    if ga.dissolved then leaveFollower s
    else (s.modMe (fun t => t.modRun (fun r => { r with phaseVal := if o.s then 1 else 0 }))).waitJoint inGrejoin
  | _ => s.retire o.s

def execGrejoin (o : CR) (s : State) : Host.Outcome State Fault Refusal := s.run (.grejoin o) (doGrejoin o)

/-- The instruction at which the thread in focus stands asleep, as if it ran. -/
def State.asleepAt (s : State) (p : Instr → Option (State → State)) : State :=
  match issue (s.modMe (fun t => t.modRun (fun r => { r with ts := .running }))) with
  | .wait _ => s
  | .go s' i => match p i with
    | some f => f s'
    | none => s

/-- GREJOIN_REUNION: the leader in focus waits in `grejoin`, and every member is there or has left. A detached member whose gathering has
dissolved meanwhile leaves it. -/
def execGrejoinReunion (s : State) : Host.Outcome State Fault Refusal :=
  let g := s.focus.tile
  .next (if s.focus.thread ≠ 0 ∨ !s.waitsIn g inGrejoin then s
    else if s.me.run.gather.role == .detached && s.me.run.gather.dissolved then
      s.asleepAt (fun i => match i with | .grejoin o => some (doGrejoin o) | _ => none)
    else if s.me.run.gather.role == .leader && s.grejoinReady g then
      s.asleepAt (fun i => match i with | .grejoin o => some (fun s => s.reunite g o.s) | _ => none)
    else s)

def State.gsyncReady (s : State) (g : Nat) : Bool :=
  s.performedAll g && (s.attachedOf g).all (fun m => s.waitsIn m inGsync && s.performedAll m)

def State.releaseSync (s : State) (g : Nat) (sb : Bool) : State :=
  ((s.attachedOf g).foldl (fun s m => s.completeJoint m sb) s).completeJoint g sb

def doGsync (o : CR) (s : State) : State :=
  let g := s.focus.tile
  match s.me.run.gather.role with
  | .leader => if s.gsyncReady g then s.releaseSync g o.s else s.waitJoint inGsync
  | .attached => s.waitJoint inGsync
  | _ => s.retire o.s

def execGsync (o : CR) (s : State) : Host.Outcome State Fault Refusal := s.run (.gsync o) (doGsync o)

/-- GSYNC_RELEASE: the leader in focus waits in `gsync`, its own or that of a gang form, and so does every attached member. -/
def execGsyncRelease (s : State) : Host.Outcome State Fault Refusal :=
  let g := s.focus.tile
  .next (if s.focus.thread = 0 ∧ s.waitsIn g inGsync ∧ s.me.run.gather.role == .leader then
      s.asleepAt (fun i => match i with
        | .gsync o => if s.gsyncReady g then some (fun s => s.releaseSync g o.s) else none
        | i => gangForm s i)
    else s)

/-- The leader dissolves its gathering once every attached member has executed the word; then `go`. -/
def leaveLeader (s : State) (go : State → State) : State :=
  let g := s.focus.tile
  if !(s.attachedOf g).isEmpty then s.waitHere else go (s.dissolve g)

def doGleave (o : CR) (s : State) : State :=
  match s.me.run.gather.role with
  | .leader => leaveLeader s (fun s => s.retire o.s)
  | .attached | .detached => leaveFollower s
  | _ => s.retire o.s

def execGleave (o : CR) (s : State) : Host.Outcome State Fault Refusal := s.run (.gleave o) (doGleave o)

/-! Masks (09 R230) -/

def maskBits (g : Nat) (l : List Nat) : Nat := (l.map (fun m => 2 ^ (m - g))).foldl (· + ·) 0

/-- A detached follower whose gathering has dissolved keeps INDEX and SIZE (R234); of its members only the detached ones are left (DEDUCED,
assumption 94). -/
def ginfoWord (s : State) (g : Nat) : Nat :=
  let ga := (s.thread g 0).run.gather
  if ga.role == .solo then 281474976710656 + 1
  else if ga.dissolved then
    ga.index * 9007199254740992 + ga.size * 281474976710656 + maskBits ga.leader (s.strays ga.leader ga.size) * 65536
  else
    let l := s.leaderOf g
    ga.index * 9007199254740992 + ga.size * 281474976710656 + maskBits l (s.membersIn l .left) * 4294967296
      + maskBits l (s.membersIn l .detached) * 65536 + maskBits l (s.membersIn l .attached) + 1

def execGinfo (o : CR) (s : State) : Host.Outcome State Fault Refusal :=
  s.run (.ginfo o) (fun s =>
    s.longLatency (fun s => (s.addPend ⟨false, o.rd, ginfoWord s s.focus.tile, 0, .done, false⟩).retire o.s))

end Sys2Proof.Machine
end

