-- ==== Sys2Proof/Machine/Tasks.lean ====
section
/-!
DEFINITION. The task instructions, the arrivals of records, and the island's launches (08 R185 to R195).
-/
namespace Sys2Proof.Machine

/-! Instructions (08 R189 to R195) -/

/-- The record that `spawn` and `spawnt` read: a trap, a wait, or its doublewords (R190). -/
inductive RecRead where
  | trap (cause addr : Nat)
  | wait
  | ok (d0 d1 d2 : Nat)
  deriving DecidableEq, Repr

def readRecord (s : State) (a : Nat) : RecRead :=
  let g := s.focus.tile
  let o := addrOff a
  if pathOf a ≠ 1 ∨ addrName a ≠ s.nameOf g ∨ addrWin a ≠ 0 ∨ 0x20000 < o + 32 then .trap 0x05 a
  else if a % 8 ≠ 0 then .trap 0x04 a
  else if s.heldOrder g s.focus.thread 2 g || !ownReady s g o 32 || mqConflict s ⟨g, o, s.nameOf g⟩ 32 false then .wait
  else match (List.range 4).find? (fun k => poisonedAt s g (o + 8 * k) 8) with
    | some k => .trap 0x21 (a + 8 * k)
    | none =>
      let d1 := s.loadAt g (o + 8) 8
      let d2 := s.loadAt g (o + 16) 8
      if recBad d1 d2 then .trap 0x05 a else .ok (s.loadAt g o 8) d1 d2

def doSpawn (o : CR) (s : State) : State :=
  let g := s.focus.tile
  match readRecord s (s.getXn o.rs1) with
  | .trap c a => s.takeTrap c 0 a
  | .wait => s.waitHere
  | .ok d0 d1 d2 =>
    let c := clusterOf g
    if s.heldOrder g s.focus.thread 1 g || !s.roomFor c (recQueue d2) then s.waitHere
    else
      let (s, r) := s.give
      match r with
      | .wait => s.waitHere
      | .share lv lexp dom =>
        (s.enqueueRec c (recQueue d2) (s.newRec g d0 d1 (recWith d2 (s.regionIdOf g) lv lexp dom))).retire o.s

def execSpawn (o : CR) (s : State) : Host.Outcome State Fault Refusal := s.run (.spawn o) (doSpawn o)

def doSpawnt (o : CR) (s : State) : State :=
  let g := s.focus.tile
  match readRecord s (s.getXn o.rs1) with
  | .trap c a => s.takeTrap c 0 a
  | .wait => s.waitHere
  | .ok d0 d1 d2 =>
    if s.heldOrder g s.focus.thread 1 (nameTile (s.getXn o.rs2 % 17179869184)) then s.waitHere
    else if !s.canInject g 12 2 then s.sleep 1 0 28
    else
      let (s, r) := s.give
      match r with
      | .wait => s.waitHere
      | .share lv lexp dom =>
        let n := s.getXn o.rs2 % 17179869184
        -- LDOM travels in the record, LV and LEXP in the header
        let d2 := recWith d2 (s.regionIdOf g) false 0 0 + (if lv then dom * 2199023255552 else 0)
        (s.sendFrom g s.focus.thread n (nameTile n) 12 2 2 lv lexp 0 0 (.task d0 d1 d2 0)).retire o.s

def execSpawnt (o : CR) (s : State) : Host.Outcome State Fault Refusal := s.run (.spawnt o) (doSpawnt o)

/-- A join decrement of the counter at flat address `a` (R194): an AMO without result, posted. -/
def State.sendJoin (s : State) (a : Nat) (lv : Bool) (lexp dom : Nat) : State :=
  let g := s.focus.tile
  let h := s.focus.thread
  let p := placeOfTileAddr a
  let id := (s.tile g).e.nextId
  let s := s.modTile g (fun t => t.modEng (fun e => { e with nextId := id + 1 }))
  let s := s.modThread g h (fun t => t.modRun (fun r => { r with outs := r.outs ++
    [{ id := id, parts := [⟨p.home, clsR + clsW, 0⟩], dst := .nowhere, aq := false, pc := t.r.pc, word := s.focus.word, flats := [(0, a)],
       issued := s.now, posted := true, rep := t.repMark }] }))
  (s.nextSeq g h).sendAccess g
    (s.msgFrom g h p.dst p.home 13 3 2 lv lexp dom 0 (.mem { mkReq .jdec p 8 0 a with id := id, awaited := false })) a (clsR + clsW)

/-- Must a join decrement wait for a queued matrix entry of t0 that reads or writes the 40 bytes of its own tile (06 R137, R194)? -/
def State.joinConflict (s : State) (a : Nat) : Bool := mqConflict s (placeOfTileAddr a) 40 true

def doJdec (o : CR) (s : State) : State :=
  let a := s.getXn o.rs1
  if pathOf a ≠ 1 ∨ addrWin a ≠ 0 ∨ 0x20000 < addrOff a + 40 then s.takeTrap 0x07 0 a
  else if a % 8 ≠ 0 then s.takeTrap 0x06 0 a
  else if s.heldOrder s.focus.tile s.focus.thread 3 (nameTile (addrName a)) || !s.roomToIssue s.focus.tile s.focus.thread || s.joinConflict a then s.waitHere
  else
    let (s, r) := s.give
    match r with
    | .wait => s.waitHere
    | .share lv lexp dom => (s.sendJoin a lv lexp dom).retire o.s

def execJdec (o : CR) (s : State) : Host.Outcome State Fault Refusal := s.run (.jdec o) (doJdec o)

/-- The end of a task (R193): the join with its share, the return of the rest, and IDLE. -/
def endTask (s : State) : State :=
  let g := s.focus.tile
  let h := s.focus.thread
  let w := s.me.r.weight
  let dom := s.me.r.qwDom
  let d1 := match s.me.run.task with | some t => t.tr.dw1 | none => 0
  let share := if recJv d1 ∧ 0 < w then 2 ^ Nat.log2 w else 0
  let s := if recJv d1 then s.sendJoin (288230376151711744 + recJaddr d1) (decide (0 < w)) (62 - Nat.log2 w) dom else s
  let s := s.modMe (fun t => t.counted.modRegs (fun r => { r with weight := 0 }))
  let s := if w = share then s else s.giveBack g h dom (w - share)
  s.idleThread g h

def doTend (s : State) : State :=
  let w := s.me.r.weight
  let ga := s.me.run.gather
  if ga.role == .attached then leaveFollower s
  else if !s.switched then s.switchFirst
  else if !s.mayEnd || !s.returnRoom s.focus.tile w || !s.roomToIssue s.focus.tile s.focus.thread then s.waitHere
  else if ga.role == .detached then leaveFollower (s.returnHeld s.focus.tile s.focus.thread)
  else if ga.role == .leader then leaveLeader s endTask
  else endTask s

def execTend (_ : CR) (s : State) : Host.Outcome State Fault Refusal := s.run (.tend ⟨false, 0, 0, 0⟩) doTend

/-- RECIPE_CTL of a cluster (R215). -/
def recipeCtl (c : Cluster) : Nat :=
  bit c.prepAck 8 + bit c.recipeDis 4 + bit c.recipeFail 3 + bit c.qstatOvf 2 + c.recipeAct % 2

/-- The value of a selector (R195); none for the illegal ones. -/
def taskinfoValue (s : State) (sel : Nat) : Option Nat :=
  let g := s.focus.tile
  let h := s.focus.thread
  let c := s.cluster (clusterOf g)
  let task (f : TaskInfo → Nat) : Option Nat := some (match s.me.run.task with | some t => f t | none => 0)
  match sel with
  | 0 => task (fun t => t.tr.dw2)
  | 1 => task (fun t => t.tr.frame)
  | 2 => task (fun t => t.tr.dw1)
  | 3 => task (fun t => t.started)
  | 4 => task (fun t => t.tr.guest)
  | 5 => task (fun _ => threadIndex g h)
  | 6 => task (fun t => t.tr.target.getD 0xFFFF)
  | 7 => task (fun t => if t.tr.resume.isSome then 1 else 0)
  | 8 => some (recipeCtl c)
  | _ => if 16 ≤ sel ∧ sel ≤ 31 then some (c.queue (sel - 16)).length else none

def execTaskinfo (o : CR) (s : State) : Host.Outcome State Fault Refusal :=
  s.run (.taskinfo o) (fun s => match taskinfoValue s o.rs1 with
    | some v => (s.putXn o.rd v).retire o.s
    | none => s.illegal)

/-! Arrivals -/

/-- The acknowledgement of a copy engine's unit (15 R317, R318). -/
def State.ackUnit (s : State) (h : Nat) (m : Msg) (unit : Nat) : State :=
  s.answer h m.src m.srcHome m.seq m.sthr 0 (.resp unit 0 0 false 0)

/-- TASK_RECORD: the oldest launch message ejected at the tile in focus is enqueued, refused, or waits for room (R188, R191, R192). Its
launch right was checked at the ingress. -/
def execTaskRecord (s : State) : Host.Outcome State Fault Refusal :=
  let g := s.focus.tile
  let c := clusterOf g
  .next (match takeMsg (fun m => m.kind == 2) (s.home g).inbox with
    | none => s
    | some (m, rest) => match m.body with
      | .task d0 d1 d2 unit =>
        let q := recQueue d2
        let out : State := s.modHome g (fun k => { k with inbox := rest })
        if recBad d1 d2 then out.refuse g m 4
        else if !s.roomFor c q then s
        else
          let s := out.enqueueRec c q { s.newRec g d0 d1 (recWith d2 m.region m.lv m.lexp (recDom d2)) with sent := m.sent }
          if unit = 0 then s else s.ackUnit g m (unit - 1)
      | _ => s)

/-- A join decrement at its home (R194): the counter, its record on reaching zero, and the share that the record does not take. -/
def joinAt (s : State) (g : Nat) (m : Msg) (a : Nat) : State :=
  let c := s.loadAt g a 8
  let back (s : State) : State := s.returnWeight g m
  if c = 0 then (back s).notice (islandOf g) 0x62 (s.nameOf g)
  else
    let s := s.storeAt g a (natBytes 8 (c - 1)) m.srcHome m.sthr
    if c ≠ 1 then back s
    else
      let d1 := s.loadAt g (a + 16) 8
      let d2 := s.loadAt g (a + 24) 8
      if recBad d1 d2 then (back s).notice (islandOf g) 0x62 (s.nameOf g)
      else
        let own := m.region == s.regionIdOf g
        let t := { s.newRec g (s.loadAt g (a + 8) 8) d1 (recWith d2 (s.regionIdOf g) (m.lv && own) m.lexp (m.aux % 64)) with sent := m.sent }
        let s := if own then s else back s
        s.enqueueReserved (clusterOf g) (recQueue d2) t

/-! The island's launches (08 R185, R187, 01 R27) -/

/-- ISLAND_LAUNCH: a record with fields the island sets, for the tile in focus; a malformed one is dropped with a report, its share returned
(10 R251, R252). A record that the island holds (R185) is enqueued again with its age, its leaven and its own class of admission. -/
def execIslandLaunch (d0 d1 d2 : Nat) (s : State) : Host.Outcome State Fault Refusal :=
  let g := s.focus.tile
  let c := clusterOf g
  let i := islandOfCluster c
  let q := recQueue d2
  let t := s.newRec g d0 d1 d2
  .next (match (s.island i).heldRecs.find? (fun x => x.1 == c && x.2.frame == d0 && x.2.dw1 == d1 && x.2.dw2 == d2) with
    | some x =>
      if (if x.2.reserved then s.places c q = 0 else !s.roomFor c q) then s
      else (s.modIsland i (fun k => { k with heldRecs := k.heldRecs.erase x })).enqueueRec c q x.2
    | none =>
      if islandSlot c then s
      else if recBad d1 d2 then (s.returnStaged c d2).notice i 0x60 c
      else if s.roomFor c q then s.enqueueRec c q t else s)

/-- ISLAND_THREAD_START: an IDLE t0 or t1 of a tile starts at a scratchpad offset, without a task. -/
def execIslandThreadStart (code : Nat) (s : State) : Host.Outcome State Fault Refusal :=
  let g := s.focus.tile
  let h := s.focus.thread
  .next (if islandSlot (clusterOf g) ∨ 1 < h ∨ !s.takeable g h then s
    else
      let d2 := s.regionIdOf g * 67108864 + code % 131072 / 4 * 4
      ((s.startTask g h (s.newRec g 0 0 d2)).modThread g h (fun t => t.modRun (fun r => { r with task := none }))).checkHeads (clusterOf g))

end Sys2Proof.Machine
end

