-- ==== Sys2Proof/Machine/SaveArea.lean ====
section
/-!
DEFINITION. What a save and an eviction write to edge memory: the context area (17 R364, R365) and the swap slots (17 R366).

The layouts give each item's place and size, and the order of what lies in an item. Where an item's own parts have no places, they lie in
that order as doublewords (DEDUCED, assumption 35).
-/
namespace Sys2Proof.Machine

/-- An item of a layout: its offset, the doublewords it has, and what they hold; the rest of them is zero. -/
structure AreaItem where
  off : Nat
  size : Nat
  words : List Nat
  deriving DecidableEq, Repr

/-- Doublewords from key `a` on, over bytes that are zero. -/
def Memory.putWords (m : Memory) (a : Nat) (ws : List Nat) : Memory :=
  match ws with
  | [] => m
  | w :: r => Memory.putWords (if w = 0 then m else m.writeNat a 8 w) (a + 8) r

/-- Items over an area of zero bytes that begins at key `a`. -/
def Memory.putItems (m : Memory) (a : Nat) (l : List AreaItem) : Memory :=
  l.foldl (fun m i => m.putWords (a + i.off) (i.words.take i.size)) m

/-- The `n` low doublewords of a number. -/
def numWords (n v : Nat) : List Nat := (List.range n).map (fun i => v / 2 ^ (64 * i) % 18446744073709551616)

/-! The items of a thread (R365) -/

/-- Thread states, numbered as 08 R205 numbers them. -/
def tsCode (t : TState) : Nat :=
  match t with
  | .idle => 0 | .running => 1 | .parked => 2 | .sleeping => 3 | .stopped => 4

/-- A record's four doublewords; the hardware keeps the time of the enqueue in the last (08 R180), and above it the swap slot that a resume
record names, plus 1 (17 R366). -/
def recordWords (t : TaskRec) : List Nat :=
  [t.frame, t.dw1, t.dw2, t.enqueued % 281474976710656 + (match t.resume with | some k => k % 65536 + 1 | none => 0) * 281474976710656]

/-- The words of the forward buffer, two to a doubleword, the older low. -/
def fwdWords (l : List FwdWord) : List Nat :=
  let w (i : Nat) : Nat := ((l.map (fun x => x.word)).getD i 0) % 4294967296
  (List.range 4).map (fun i => w (2 * i) + w (2 * i + 1) * 4294967296)

/-- The thread block. -/
def threadBlock (s : State) (g h : Nat) : List Nat :=
  let t := s.thread g h
  let csr (n : Nat) : Nat := (csrRead s g h n).getD 0
  let f (n : Nat) : Nat := (t.r.getF n).toNat
  let masks := if h = 0 then ginfoWord s g % 281474976710656 else 0
  [t.r.pc.toNat] ++ (List.range 31).map (fun i => (t.r.getX (i + 1)).toNat) ++
  (List.range 16).map (fun i => f (2 * i) + f (2 * i + 1) * 4294967296) ++ [csr 0x003] ++
  (List.range 13).map (fun i => csr (0x800 + i)) ++ (List.range 8).map (fun i => csr (0x810 + i)) ++
  [t.r.weight, t.r.s0.toNat, t.r.s1.toNat] ++
  (match t.run.task with | some k => recordWords k.tr | none => [0, 0, 0, 0]) ++
  [tsCode t.run.ts] ++ waitWords g h t.run.wait ++ [t.run.npd, t.run.secTime] ++
  [csr 0xCC1, masks / 4294967296, masks / 65536 % 65536, masks % 65536] ++ fwdWords t.run.gather.buf ++ [csr 0xCC6]

/-- The pending long-latency writes: register number and words consumed in one doubleword, then the value. -/
def pendWords (l : List Pend) : List Nat :=
  ((l.take 8).map (fun p => (p.reg + p.consumed * 4294967296) :: numWords 8 p.value)).flatten

def copyWords (l : List CopyEntry) : List Nat :=
  ((l.take 8).map (fun c => [c.w0, c.w1, c.w2, c.w3, c.s1, c.s2, c.d1, c.d2, c.prog, c.share, c.thread, c.pc.toNat])).flatten

def matrixWords (l : List MatEntry) : List Nat :=
  ((l.take 4).map (fun e => [e.word, e.pc.toNat, e.x1.toNat, e.x2.toNat, e.sa, e.sb, e.scaleB] ++ numWords 8 e.scaleA.toNat ++
    numWords 8 (bytesNat e.recBytes) ++ [0])).flatten

/-! Replay entries (R361). The spec gives the kinds no numbers and the fields of the first word no bits: here the kind, in the order of R361,
has bits [7:0] and the thread [15:8] (DEDUCED, assumption 36). -/

/-- Kind of an access: 0 load, 1 store, 2 AMO, 3 LR, 4 SC, 5 `barrive`, 6 `jdec`, 11 window 7 store. The words of sends, ports and `spawnt`
wait at their instruction, which executes again (R359), so 7 to 10 do not arise. -/
def replayKind (m : Msg) (q : MemReq) : Nat :=
  if m.kind = 1 then 11
  else match q.op with
    | .store => 1
    | .amo _ => 2
    | .lr => 3
    | .sc => 4
    | .barrive => 5
    | .jdec => 6
    | _ => 0

/-- The bytes of a vector register that elements fill: a byte mask and the image. -/
def laneImage (qs : List MemReq) : Nat × Nat :=
  qs.foldl (fun a q =>
    let o := q.lane / 16
    (a.1 + (2 ^ q.size - 1) * 2 ^ o, a.2 + q.data % 256 ^ q.size * 256 ^ o)) (0, 0)

/-- The entry of one access, from its requests: the elements of a vector access have the byte mask in place of the flat address. -/
def replayEntry (l : List Unsent) : List Nat :=
  let qs := l.filterMap (fun u => match u.msg.body with | .mem q => some q | _ => none)
  match l, qs with
  | u :: _, q :: _ =>
    let word := replayKind u.msg q + u.msg.sthr * 256
    if q.lane = 0 then [word, u.flat, q.data, 0, 0, 0, 0, 0, 0, 0]
    else let (mask, image) := laneImage qs; [word, mask] ++ numWords 8 image
  | _, _ => []

/-- The entry with its instruction's word in bits [63:32]. -/
def replayWords (t : Thread) (l : List Unsent) : List Nat :=
  let id := match l with | u :: _ => (match u.msg.body with | .mem q => q.id | _ => 0) | [] => 0
  let insn := match t.run.outs.find? (fun o => o.id == id) with | some o => o.word | none => 0
  match replayEntry l with
  | [] => []
  | w :: r => (w + insn % 4294967296 * 4294967296) :: r

/-- The messages that wait, gathered by access, in the order of issue. -/
def byAccess (us : List Unsent) : List (List Unsent) :=
  let key (u : Unsent) : Nat × Nat := (u.msg.sthr, match u.msg.body with | .mem q => q.id | _ => 0)
  ((us.map key).eraseDups).map (fun k => us.filter (fun u => key u == k))

/-- The replay entries of a tile's waiting accesses. -/
def replayItem (thr : Nat → Thread) (us : List Unsent) : List Nat :=
  ((byAccess us).map (fun l => replayWords (thr (match l with | u :: _ => u.msg.sthr | [] => 0)) l)).flatten

def vWordsOf (r : TileRegs) : List Nat := ((List.range 32).map (fun n => numWords 8 (r.getV n).toNat)).flatten
def pWordsOf (r : TileRegs) : List Nat := (List.range 8).map (fun n => (r.getP n).toNat)
/-- The accumulators in the layout of 06 R145. -/
def accWordsOf (r : TileRegs) : List Nat :=
  (List.range 1024).map (fun n => let p := r.getAcc (n / 256) (n / 16 % 16) (n % 16); p.1.toNat + p.2.toNat * 4294967296)

/-! The router image (R365) -/

/-- The header flit (07 R156). -/
def headerFlit (m : Msg) : Nat :=
  m.dst % 2 ^ 34 * 2 ^ 94 + m.src % 2 ^ 34 * 2 ^ 60 + m.vc % 16 * 2 ^ 56 + m.kind % 16 * 2 ^ 52 + bit m.lv 51 + m.lexp % 64 * 2 ^ 45 +
  m.len % 32 * 2 ^ 40 + m.region % 256 * 2 ^ 32 + m.handler % 64 * 2 ^ 26 + m.seq % 256 * 2 ^ 18 + m.sthr % 4 * 2 ^ 16 + m.aux % 65536

/-- The payload's words of the kinds that travel on VC 0 to 12 (07 R175, R176, 08 R181); a window 7 store is a word of stream data (12 R268). -/
def payloadWords (b : Payload) : List Nat :=
  match b with
  | .portWord v _ => [v.toNat]
  | .stream ws => ws.map (fun w => w.toNat)
  | .task frame dw1 dw2 _ => [frame, dw1, dw2]
  | .mem q => [q.data]
  | _ => []

/-- A message as doublewords: its header and LEN flits of payload. -/
def flitWords (m : Msg) : List Nat :=
  let ws := payloadWords m.body
  numWords 2 (headerFlit m) ++ (List.range (2 * m.len)).map (fun i => ws.getD i 0)

/-- The 130 buffers in header order: inputs north, east, south, west, local; VC 0 to 12; main and escape. -/
def imageBuffers (rt : Router) : List (List Msg) :=
  (List.range 130).map (fun k => rt.bufs.look (bufKey (k / 26) (k / 2 % 13) (k % 2 == 1)) [])

def imageCounts (rt : Router) : List Nat :=
  numWords 17 (((imageBuffers rt).zipIdx.map (fun (l, k) => (l.map (fun m => m.len + 1)).foldl (· + ·) 0 % 256 * 256 ^ k)).foldl (· + ·) 0)

/-- The poison bitmap. -/
def poisonWords (t : Tab Bool) : List Nat := numWords 256 (((t.filter (fun p => p.2)).map (fun p => 2 ^ p.1)).foldl (· ||| ·) 0)

/-! Tile slots, cluster blocks, the area (R364) -/

/-- The items of a tile slot; `t` is the part of the tile that belongs to the context. -/
def tileItems (s : State) (g : Nat) (t : Tile) : List AreaItem :=
  let fifo (p : Nat) : List Word64 := (t.e.fifo.look p []).map (·.1)
  let valid := bit ((s.thread g 0).run.ts != .idle) 0 + bit ((s.thread g 1).run.ts != .idle) 1 + bit ((s.thread g 2).run.ts != .idle) 2
  [⟨0x0, 8, [s.nameOf g, valid, (byAccess t.e.unsent).length, t.r.lhtbase * 512] ++ (List.range 4).map (fun p => (fifo p).length)⟩,
   ⟨0x40, 96, threadBlock s g 0⟩, ⟨0x340, 96, threadBlock s g 1⟩,
   ⟨0x640, 72, pendWords (s.thread g 0).run.pend⟩, ⟨0x880, 72, pendWords (s.thread g 1).run.pend⟩,
   ⟨0xC80, 96, copyWords t.e.copies⟩,
   ⟨0x1000, 512, (t.e.store.map (fun w => [w.word.toNat, 9223372036854775808 + w.vc * 17179869184 + w.src])).flatten⟩] ++
  (List.range 4).map (fun p => ⟨0x2000 + 128 * p, 16, (fifo p).map (fun w => w.toNat)⟩) ++
  [⟨0x2200, 320, replayItem t.thread t.e.unsent⟩, ⟨0x2C00, 96, matrixWords t.e.mq⟩, ⟨0x2F00, 1, [mprogWord t.e]⟩, ⟨0x3000, 256, vWordsOf t.r⟩, ⟨0x3800, 8, pWordsOf t.r⟩,
   ⟨0x4000, 1024, accWordsOf t.r⟩, ⟨0x6000, 256, poisonWords t.c.poison⟩, ⟨0x7000, 17, imageCounts t.rt⟩,
   ⟨0x7100, 1560, ((imageBuffers t.rt).map (fun l => (l.map flitWords).flatten)).flatten⟩]

/-- The items of a cluster block and of the cluster's 16 queues; the records of a spill ring lie in a scratchpad. -/
def clusterItems (k : Cluster) : List AreaItem :=
  let img (slot i : Nat) : Nat := ((List.range 4).map (fun j => k.img.look (256 * slot + 4 * i + j) 0 % 65536 * 65536 ^ j)).foldl (· + ·) 0
  [⟨0, 47, [k.ageLimit, k.timerCfg, k.taskSlice, k.qspill] ++ (List.range 16).map (fun n => k.budget.look n 0) ++
      (List.range 8).map (fun n => k.scratch.look n 0) ++ [recipeCtl k, k.ent.look 0 0, k.ent.look 1 0] ++
      (List.range 16).map (fun n => (k.queues.look n []).length)⟩,
   ⟨0x178, 128, (List.range 128).map (fun i => img (i / 64) (i % 64))⟩] ++
  (List.range 16).map (fun n => ⟨0x1000 + 0x2000 * n, 1024,
    (((k.queues.look n []).filter (fun x => x.spill.isNone)).map (fun x => recordWords x.tr)).flatten⟩)

/-- The area's length, and a tile slot's offset in it. -/
def areaSize (n : Nat) : Nat := 0x10000 + 0x21000 * n + 0x2C000 * 192 * n
def slotOff (cs : List Nat) (g : Nat) : Nat :=
  0x10000 + 0x21000 * cs.length + 0x2C000 * (clusterIndex cs (clusterOf g) * 192 + localOf g)

/-- A domain entry as 10 R237 lays it out. -/
def domainWords (e : DomEntry) : List Nat :=
  [e.state * 2305843009213693952 + bit e.here 60 + e.root, (e.home % 18446744073709551616).toNat]

/-- The area's first 64 KiB: the header and the domain entries of the root clusters. -/
def headItems (s : State) (r : Nat) : List AreaItem :=
  let q := s.region r
  let dom (d : Nat) : DomEntry := match q.clusters.find? (fun c => (s.domain c d).here) with
    | some c => s.domain c d
    | none => {}
  [⟨0x40, 128, ((List.range 64).map (fun d => domainWords (dom d))).flatten⟩,
   ⟨0, 8, [0x58544347 + 4294967296, r % 256 + q.clusters.length % 65536 * 65536, s.now, q.debt % 4294967296]⟩]

/-- A state in which the tiles and clusters of a saved context stand as they were saved. -/
def State.withSaved (s : State) (v : Saved) : State :=
  let s := v.tiles.foldl (fun s x => s.modTile x.1 (fun t => { x.2 with c := t.c })) s
  v.clusters.foldl (fun s x => s.modCluster x.1 (fun _ => x.2)) s

/-- Memory with the context area of a region written (R364, R365): `tiles` are the saved tiles, `pads` the cells of the scratchpads. -/
def State.writeArea (s : State) (r : Nat) (tiles : List (Nat × Tile)) (pads : List Host.Cell) (m : Memory) : Memory :=
  let q := s.region r
  let cs := q.clusters
  let base := edgeKey (r / 256) q.ctxBase
  let m := m.wipe base (areaSize cs.length)
  let m := cs.foldl (fun m c => m.putItems (base + 0x10000 + 0x21000 * clusterIndex cs c) (clusterItems (s.cluster c))) m
  let m := (cs.map clusterTiles).flatten.foldl (fun m g => m.putItems (base + slotOff cs g) (tileItems s g (Tab.look tiles g {}))) m
  let m := pads.foldl (fun m c => m.write (base + slotOff cs (c.1 / 131072) + 0xC000 + c.1 % 131072) c.2) m
  m.putItems base (headItems s r)

/-- The writes of a save into edge memory wake watches and end reservations like any other (14 R303). -/
def State.touchEdge (s : State) (w pa n : Nat) : State :=
  (pieces 68719476736 pa n).foldl (fun s p => s.touched (edgeHome w (p.1 / 68719476736 % 128)) (p.1 % 68719476736) p.2) s

/-! Swap slots (R366) -/

/-- The key of a swap slot, and its items: the thread's in the order of R366. -/
def State.swapKey (s : State) (r c n : Nat) : Nat := edgeKey (r / 256) (s.swapPa r c n)

def swapItems (s : State) (w : Swapped) : List AreaItem :=
  [⟨0, 96, threadBlock s w.tile w.thread⟩, ⟨0x300, 72, pendWords w.saved.run.pend⟩, ⟨0x540, 96, matrixWords w.mq⟩,
   ⟨0x840, 1, [bit w.mprogV 7 + w.mprogAcc * 32 + w.mprogRows]⟩, ⟨0x848, 96, copyWords w.copies⟩,
   ⟨0xB48, 320, replayItem (fun _ => w.saved) w.unsent⟩] ++
  (if w.thread = 0 then [⟨0x1548, 256, vWordsOf w.tregs⟩, ⟨0x1D48, 8, pWordsOf w.tregs⟩, ⟨0x1D88, 1024, accWordsOf w.tregs⟩] else [])

/-- The members' slots, by member index, in the last 32 bytes of the leader's slot; 0xFFFF for an index without a member. -/
def memberItem (own : Nat) (ms : List (Nat × Nat)) : AreaItem :=
  let slot (k : Nat) : Nat := if k = 0 then own else match ms.find? (fun m => m.1 == k) with
    | some m => m.2 % 65536
    | none => 65535
  ⟨0x3FE0, 4, numWords 4 (((List.range 16).map (fun k => slot k * 65536 ^ k)).foldl (· + ·) 0)⟩

/-- Memory with a swap slot written; the leader of a gathering has its members' slots there. -/
def State.writeSwap (s : State) (r c n : Nat) (w : Swapped) (gathered : Bool) (m : Memory) : Memory :=
  let a := s.swapKey r c n
  let m := m.wipe a 16384
  m.putItems a (swapItems s w ++ (if gathered then [memberItem n w.members] else []))

/-! Reading back (R363, R366): what the area and the slots give a place of its own is restored from their bytes. What they give none, and the
matrix entries, the replay entries and the router image, come from the copy that the save made with the bytes (assumption 35). -/

/-- Doublewords of memory from key `a` on. -/
def Memory.getWords (m : Memory) (a n : Nat) : List Nat := (List.range n).map (fun i => m.readNat (a + 8 * i) 8)

def errOfWord (v : Nat) : ErrWord :=
  { v := v / 9223372036854775808 % 2 == 1, ovf := v / 4611686018427387904 % 2 == 1, cause := v / 281474976710656 % 16384, name := v % 17179869184 }
def bindOfWord (v : Nat) : QBind := ⟨v / 9223372036854775808 % 2 == 1, v / 17179869184 % 16, v % 17179869184⟩

/-- A thread's registers from its block. -/
def Regs.fromBlock (r : Regs) (wide : Bool) (ws : List Nat) : Regs :=
  let w (i : Nat) : Nat := ws.getD i 0
  let r : Regs := { r with pc := BitVec.ofNat 64 (w 0), weight := w 70, s0 := BitVec.ofNat 64 (w 71), s1 := BitVec.ofNat 64 (w 72), errword := errOfWord (w 92) }
  let r := (List.range 31).foldl (fun r i => r.setX (i + 1) (BitVec.ofNat 64 (w (1 + i)))) r
  let r := (List.range 32).foldl (fun r n => r.setF n (BitVec.ofNat 32 (w (32 + n / 2) / 4294967296 ^ (n % 2)))) r
  let r := (List.range 13).foldl (fun r i => r.csrSet (0x800 + i) (w (49 + i))) (r.csrSet 3 (w 48))
  if wide then (List.range 8).foldl (fun r q => r.bindQ q (bindOfWord (w (62 + q)))) r else r

/-- A record from its first three doublewords. -/
def TaskRec.fromWords (t : TaskRec) (ws : List Nat) : TaskRec := { t with frame := ws.getD 0 0, dw1 := ws.getD 1 0, dw2 := ws.getD 2 0 }

/-- A thread from its block and its pending table. -/
def Thread.fromBlock (t : Thread) (wide : Bool) (ws pend : List Nat) : Thread :=
  { r := t.r.fromBlock wide ws,
    run := { t.run with
      npd := ws.getD 82 0, secTime := ws.getD 83 0,
      task := t.run.task.map (fun k => { k with tr := k.tr.fromWords (ws.drop 73) }),
      pend := t.run.pend.zipIdx.map (fun (p, i) =>
        if 8 ≤ i then p
        else
          let e := pend.drop (9 * i)
          { p with reg := e.getD 0 0 % 4294967296, consumed := e.getD 0 0 / 4294967296,
                   value := ((List.range 8).map (fun k => e.getD (k + 1) 0 * 2 ^ (64 * k))).foldl (· + ·) 0 }) } }

/-- The tile registers from their images: V, P and the accumulators. -/
def TileRegs.fromWords (r : TileRegs) (v p acc : List Nat) : TileRegs :=
  let r := (List.range 32).foldl (fun r n =>
    r.setV n (BitVec.ofNat 512 (((List.range 8).map (fun k => v.getD (8 * n + k) 0 * 2 ^ (64 * k))).foldl (· + ·) 0))) r
  let r := (List.range 8).foldl (fun r n => r.setP n (BitVec.ofNat 64 (p.getD n 0))) r
  (List.range 1024).foldl (fun r n =>
    r.setAcc (n / 256) (n / 16 % 16) (n % 16) (BitVec.ofNat 32 (acc.getD n 0), BitVec.ofNat 32 (acc.getD n 0 / 4294967296))) r

/-- Copy entries from their words. -/
def copiesFrom (l : List CopyEntry) (ws : List Nat) : List CopyEntry :=
  l.zipIdx.map (fun (c, i) =>
    let w (k : Nat) : Nat := ws.getD (12 * i + k) 0
    { c with w0 := w 0, w1 := w 1, w2 := w 2, w3 := w 3, s1 := w 4, s2 := w 5, d1 := w 6, d2 := w 7, prog := w 8, share := w 9,
             thread := w 10, pc := BitVec.ofNat 64 (w 11) })

/-- A saved tile with what its slot at key `a` holds. -/
def Tile.fromSlot (t : Tile) (m : Memory) (a : Nat) : Tile :=
  let get (off n : Nat) : List Nat := m.getWords (a + off) n
  let one (h off pend : Nat) (t : Tile) : Tile := t.modThread h (fun th => th.fromBlock (h == 0) (get off 93) (get pend 72))
  let t := one 0 0x40 0x640 (one 1 0x340 0x880 t)
  let poison := get 0x6000 256
  { t with
    r := { t.r.fromWords (get 0x3000 256) (get 0x3800 8) (get 0x4000 1024) with lhtbase := m.readNat (a + 24) 8 / 512 % 256 },
    e := { t.e with
      copies := copiesFrom t.e.copies (get 0xC80 96),
      store := t.e.store.zipIdx.map (fun (w, i) =>
        let tag := m.readNat (a + 0x1008 + 16 * i) 8
        { w with word := BitVec.ofNat 64 (m.readNat (a + 0x1000 + 16 * i) 8), vc := tag / 17179869184 % 16, src := tag % 17179869184 }),
      fifo := t.e.fifo.map (fun p => (p.1, p.2.zipIdx.map (fun (x, i) => (BitVec.ofNat 64 (m.readNat (a + 0x2000 + 128 * p.1 + 8 * i) 8), x.2)))),
      mprogV := m.readNat (a + 0x2F00) 8 / 128 % 2 == 1, mprogAcc := m.readNat (a + 0x2F00) 8 / 32 % 4, mprogRows := m.readNat (a + 0x2F00) 8 % 32 },
    c := { t.c with poison := (List.range 16384).filterMap (fun n => if poison.getD (n / 64) 0 / 2 ^ (n % 64) % 2 = 1 then some (n, true) else none) } }

/-- A saved cluster with what its block at key `a` holds: the scheduling registers, the images and the records on chip. -/
def Cluster.fromBlock (k : Cluster) (m : Memory) (a : Nat) : Cluster :=
  let w (i : Nat) : Nat := m.readNat (a + 8 * i) 8
  let ctl := w 28
  { k with
    ageLimit := w 0 % 65536, timerCfg := w 1 % 32, taskSlice := w 2 % 4294967296, qspill := w 3,
    budget := (List.range 16).map (fun n => (n, w (4 + n))), scratch := (List.range 8).map (fun n => (n, w (20 + n) % 4294967296)),
    recipeDis := ctl / 16 % 2 == 1, recipeFail := ctl / 8 % 2 == 1, qstatOvf := ctl / 4 % 2 == 1, recipeAct := ctl % 2,
    ent := [(0, w 29 % 4294967296), (1, w 30 % 4294967296)],
    img := (List.range 512).map (fun n => (n, m.readNat (a + 0x178 + 2 * n) 2)),
    queues := k.queues.map (fun q => (q.1, q.2.zipIdx.map (fun (r, i) =>
      if r.spill.isSome then r else { r with tr := r.tr.fromWords (m.getWords (a + 0x1000 + 0x2000 * q.1 + 32 * i) 3) }))) }

/-- The cells of the scratchpads that the area at key `base` holds, for a region of clusters `cs`. -/
def padsFrom (m : Memory) (base : Nat) (cs : List Nat) : List Host.Cell :=
  let first := base + 0x10000 + 0x21000 * cs.length
  let asc := sortBy (fun a b => decide (a < b)) cs
  m.filterMap (fun x =>
    if x.1 < first ∨ base + areaSize cs.length ≤ x.1 ∨ (x.1 - first) % 0x2C000 < 0xC000 then none
    else some (padKey (tileIn (asc.getD ((x.1 - first) / 0x2C000 / 192) 0) ((x.1 - first) / 0x2C000 % 192)) ((x.1 - first) % 0x2C000 - 0xC000), x.2))

/-- A saved context with what its area holds. -/
def State.readArea (s : State) (r : Nat) (v : Saved) : Saved :=
  let q := s.region r
  let cs := q.clusters
  let base := edgeKey (r / 256) q.ctxBase
  { v with
    tiles := v.tiles.map (fun x => (x.1, x.2.fromSlot s.mem (base + slotOff cs x.1))),
    clusters := v.clusters.map (fun x => (x.1, x.2.fromBlock s.mem (base + 0x10000 + 0x21000 * clusterIndex cs x.1))),
    pads := padsFrom s.mem base cs }

/-- An evicted thread with what its slot holds. -/
def State.readSwap (s : State) (r key : Nat) (w : Swapped) : Swapped :=
  let a := s.swapKey r (key / 65536) (key % 65536)
  let get (off n : Nat) : List Nat := s.mem.getWords (a + off) n
  let mp := s.mem.readNat (a + 0x840) 8
  { w with
    saved := w.saved.fromBlock (w.thread == 0) (get 0 93) (get 0x300 72),
    tregs := if w.thread = 0 then w.tregs.fromWords (get 0x1548 256) (get 0x1D48 8) (get 0x1D88 1024) else w.tregs,
    mprogV := mp / 128 % 2 == 1, mprogAcc := mp / 32 % 4, mprogRows := mp % 32,
    copies := copiesFrom w.copies (get 0x848 96) }

end Sys2Proof.Machine
end

