-- ==== Sys2Proof/Machine/Context.lean ====
section
/-!
DEFINITION. Tenant contexts (17 R356 to R370): their states, stops and drains, save and restore, termination, evicted tasks, and guest
time (19 R405, R406).
-/
namespace Sys2Proof.Machine

/-! Context states (17 R358) -/

def ctxFree : Nat := 0
def ctxUnloaded : Nat := 1
def ctxLoading : Nat := 2
def ctxRunning : Nat := 3
def ctxDraining : Nat := 4
def ctxSaving : Nat := 5
def ctxTerminating : Nat := 6

/-- The wafer of a region, and its id. -/
def regWafer (r : Nat) : Nat := r / 256
def regId (r : Nat) : Nat := r % 256

/-! Guest time (19 R406) -/

def State.pauseTime (s : State) (r : Nat) : State :=
  if s.selfHosted r || (s.region r).gtFrozen then s
  else s.modRegion r (fun q => { q with gtSaved := (s.now + q.gtOff) % 18446744073709551616, gtFrozen := true })
def State.resumeTime (s : State) (r : Nat) : State :=
  if s.selfHosted r then s.modRegion r (fun q => { q with gtOff := 0, gtFrozen := false })
  else s.modRegion r (fun q => { q with gtOff := (q.gtSaved + 18446744073709551616 - s.now) % 18446744073709551616, gtFrozen := false })

/-! Stops -/

/-- A stop for every t0 and t1 of a region, leaders of gatherings first. -/
def State.stopRegion (s : State) (r : Nat) (f : StopReq → StopReq) : State :=
  let ts := s.regionTiles r
  let lead (g : Nat) : Bool := (s.thread g 0).run.gather.role == .leader
  let order := (ts.filter lead).map (fun g => (g, 0)) ++ (ts.filter (fun g => !lead g)).map (fun g => (g, 0)) ++ ts.map (fun g => (g, 1))
  order.foldl (fun s x => s.askStop x.1 x.2 f) s

/-- A stop at the next boundary that no section defers; what the threads have not injected is discarded (17 R370). -/
def State.stopRegionNow (s : State) (r : Nat) : State :=
  let drop (s : State) (g h : Nat) : State := if s.midway g h then s else s.dropUnsent g h
  (s.regionTiles r).foldl (fun s g => let s := (s.stopOther g 0).stopOther g 1; drop (drop s g 0) g 1) s

/-! Drain (17 R360) -/

/-- Every message in a router or waiting at a home, with the coordinate where it is. -/
def State.inFlight (s : State) : List (Nat × Msg) :=
  (s.tiles.map (fun p => (p.2.rt.bufs.map (fun b => b.2.map (fun m => (p.1, m)))).flatten)).flatten ++
  (s.homes.map (fun p => (p.2.inbox ++ p.2.outbox).map (fun m => (homeRouter p.1, m)))).flatten

/-- A message of the region: it bears the region's id and was sent on its wafer. -/
def ofRegion (r : Nat) (m : Msg) : Bool := m.region == regId r && homeWafer m.srcHome == regWafer r

/-- Are all requests of an access still to be injected? -/
def Tile.allUnsent (t : Tile) (o : Out) : Bool :=
  o.parts.all (fun x => t.e.unsent.any (fun u => match u.msg.body with
    | .mem q => q.id == o.id && q.lane == x.lane && u.msg.dstHome == x.home
    | _ => false))

/-- No injected access, borrow or claimed unit of the tile is under way. -/
def State.tileQuiet (s : State) (g : Nat) : Bool :=
  let t := s.tile g
  -- a window 7 store under way is in the router images, as a `send` is
  let imaged (o : Out) : Bool := s.inFlight.any (fun x => x.2.kind == 1 && x.2.srcHome == g && (refusedInfo x.2).1 == o.id && (refusedInfo x.2).2.2.2 == 5)
  let idle (h : Nat) : Bool := (t.thread h).run.outs.all (fun o => imaged o || t.allUnsent o) && (t.thread h).run.give != .asked
  idle 0 && idle 1 && t.e.units.isEmpty && t.e.returns.isEmpty && t.e.copies.all (fun c => c.st != .increment && c.give != .asked)

/-- The conditions of R360 on the region's tiles. -/
def State.tilesDrained (s : State) (r : Nat) : Bool :=
  s.allStopped r && (s.regionTiles r).all (fun g =>
    s.tileQuiet g && (s.tile g).e.landQ.isEmpty && (s.tile g).e.landNow.isNone && !(s.tile g).c.proofing && !(s.tile g).c.proofDue)

/-- Every message on a path between wafers. -/
def State.onOxsor (s : State) : List Msg := (s.oxsor.map (fun p => p.2.queue)).flatten

/-- No VC 12 to 15 message of the region is under way, and its program-VC messages lie inside its clusters. Calls that an island has taken in
stay pending there (17 R359). -/
def State.netDrained (s : State) (r : Nat) : Bool :=
  let waits (m : Msg) : Bool := match m.body with | .syscall _ _ | .allocate => true | _ => false
  let inside (g : Nat) (m : Msg) : Bool := decide (m.vc ≤ 11) && s.regionOf g == r && !islandSlot (clusterOf g)
  s.tiles.all (fun p => p.2.rt.bufs.all (fun b => b.2.all (fun m => !ofRegion r m || inside p.1 m))) &&
  s.homes.all (fun p =>
    p.2.inbox.all (fun m => !ofRegion r m || (waits m && !isTileHome p.1 && !isEdgeHome p.1) || inside (homeRouter p.1) m) &&
    p.2.outbox.all (fun m => !ofRegion r m)) &&
  s.onOxsor.all (fun m => !ofRegion r m || decide (13 ≤ m.vc))

/-! Saved contexts (17 R363 to R365) -/

/-- The part of a tile that belongs to the context: threads, registers, engines, the region's router image, poison marks. -/
def ctxTile (r : Nat) (t : Tile) : Tile :=
  { thr := t.thr, r := t.r, e := { t.e with xlat := [], walks := [] },
    rt := { bufs := (t.rt.bufs.map (fun b => (b.1, b.2.filter (ofRegion r)))).filter (fun b => !b.2.isEmpty) },
    c := { poison := t.c.poison, stopped := t.c.stopped, landStop := t.c.landStop } }

/-- The part of a cluster that belongs to the context (R364). -/
def ctxCluster (c : Cluster) : Cluster :=
  { queues := c.queues, events := c.events.filter (fun e => e.kind == 5), recipeAct := c.recipeAct, recipeDis := c.recipeDis, recipeFail := c.recipeFail, qstatOvf := c.qstatOvf,
    img := c.img, ent := c.ent, ageLimit := c.ageLimit, timerCfg := c.timerCfg, taskSlice := c.taskSlice, qspill := c.qspill,
    budget := c.budget, scratch := c.scratch, lright := c.lright, domains := c.domains, borrows := c.borrows,
    quietWatch := c.quietWatch }

def padOf (k : Nat) : Nat := k / 131072
def isPadKey (k : Nat) : Bool := decide (k < 1125899906842624)

/-- The context's memory: the scratchpads of its clusters. -/
def State.regionPads (s : State) (cs : List Nat) : List Host.Cell :=
  s.mem.filter (fun c => isPadKey c.1 && cs.contains (clusterOf (padOf c.1)))

/-- A thread without anything of a context: its message counter runs on (07 R156). -/
def Thread.emptied (t : Thread) : Thread := { run := { seq := t.run.seq } }

/-- Is a message in a router one that goes with its region's context? A response or a control message to a tile of another region is not: the
accesses of other regions complete (R370). -/
def State.goesWith (s : State) (r : Nat) (m : Msg) : Bool :=
  ofRegion r m && !(decide (14 ≤ m.vc) && isTileHome m.dstHome && s.regionOf m.dstHome != r)

/-- A tile without anything of a context; what belongs to the hardware stays. `gone` picks the messages in its router that go too. -/
def clearTile (gone : Msg → Bool) (t : Tile) : Tile :=
  { thr := t.thr.map (fun p => (p.1, p.2.emptied)), r := { p := [(0, 0)] }, e := { nextId := t.e.nextId, copySerial := t.e.copySerial, mqSerial := t.e.mqSerial },
    rt := { t.rt with bufs := t.rt.bufs.map (fun b => (b.1, b.2.filter (fun m => !gone m))) },
    c := { t.c with poison := [], wakeHold := [], stopped := false, landStop := false } }

/-- A cluster without anything of a context. -/
def clearCluster (c : Cluster) : Cluster :=
  { ageOvr := c.ageOvr, overruns := c.overruns, overrunTimes := c.overrunTimes, timerLast := c.timerLast, region := c.region, mhz := c.mhz, eff := c.eff,
    cycAnchor := c.cycAnchor, timeAnchor := c.timeAnchor, stepN := c.stepN, stalls := c.stalls, stepStart := c.stepStart,
    wakes := c.wakes, spareRow := c.spareRow, badRows := c.badRows, defRow := c.defRow, off := c.off }

/-- Takes a context off its clusters: registers, queues, domains, scratchpads and access rights of the region are gone from them. -/
def State.unload (s : State) (r : Nat) : State :=
  let cs := (s.region r).clusters
  let ts := (s.tiles.map (·.1)).filter (fun g => s.regionOf g == r || cs.contains (clusterOf g))
  let gone := s.goesWith r
  let s := ts.foldl (fun s g => s.modTile g (clearTile gone)) s
  let s := ts.foldl (fun s g => s.modHome g (fun h => { h with inbox := h.inbox.filter (fun m => !ofRegion r m) })) s
  let s := cs.foldl (fun s c => s.modCluster c clearCluster) s
  { s with mem := s.mem.filter (fun c => !(isPadKey c.1 && cs.contains (clusterOf (padOf c.1)))) }

/-- The scratchpads of clusters have been written whole: watches wake and reservations end there (14 R303). -/
def State.touchPads (s : State) (cs : List Nat) : State :=
  (s.homes.filter (fun (p : Nat × HomeSt) => isTileHome p.1 && cs.contains (clusterOf p.1))).foldl (fun (s : State) (p : Nat × HomeSt) => s.touched p.1 0 131072) s

/-- An ejected message stands again at the head of the input buffer it came from. -/
def backInBuf (m : Msg) (b : Tab (List Msg)) : Tab (List Msg) :=
  let (port, esc, _) := m.route.getD (4, false, false)
  b.modify (bufKey port m.vc esc) [] (fun l => { m with route := none } :: l)

/-- Is a byte of the context area under a claim (13 R291)? The area is neither written nor read then. -/
def State.areaClaimed (s : State) (r : Nat) : Bool :=
  edgeClaimed s (regWafer r) (s.region r).ctxBase (areaSize (s.region r).clusters.length)

/-- The save of a drained context: its area in edge memory, and what the clusters are left with (R360, R364 to R366). The context is SAVING
until the save is written. The records that the islands hold for its queues go with it; the area has no place for them (assumption 35). -/
def State.saveContext (s : State) (r : Nat) : State :=
  let cs := (s.region r).clusters
  let pend (g : Nat) : List Msg := (s.home g).inbox.filter (ofRegion r)
  let tiles := (s.regionTiles r).map (fun g =>
    -- messages that wait at the tile for room are part of its router image
    let t := ctxTile r (s.tile g)
    (g, { t with rt := { t.rt with bufs := (pend g).foldr backInBuf t.rt.bufs } }))
  let clusters := cs.map (fun c => (c, ctxCluster (s.cluster c)))
  let pads := s.regionPads cs
  let held : List (Nat × TaskRec) := (cs.map (fun c => ((s.island (islandOfCluster c)).heldRecs.filter (fun x => x.1 == c)))).flatten
  let s' := cs.foldl (fun s c => s.modIsland (islandOfCluster c) (fun i => { i with heldRecs := i.heldRecs.filter (fun x => x.1 != c) })) (s.unload r)
  let s' := { s' with mem := s.writeArea r tiles pads s'.mem }.touchEdge (regWafer r) (s.region r).ctxBase (areaSize cs.length)
  s'.modRegion r (fun q => { q with saved := some ⟨tiles, clusters, pads, held⟩, ten := ctxSaving })

/-- The accesses that a thread had not injected are its replay entries, which go before its instructions (R361, R363). -/
def replayTile (t : Tile) : Tile :=
  { t with thr := t.thr.map (fun p => (p.1, p.2.modRun (fun r => { r with outs := r.outs.map (fun o => if t.allUnsent o then { o with replay := true } else o) }))),
           e := { t.e with unsent := t.e.unsent.map (fun u => { u with replay := true }) } }

/-- Every thread of a tile that was not IDLE is resumed (R363), whatever stopped it, a gathering's members together with their leader; only one
whose eviction is under way waits for its save (DEDUCED, assumption 37). -/
def State.wakeThreads (s : State) (g : Nat) : State :=
  let on (t : Thread) : Thread := t.undebug.modRun (fun r => { r with failed := false })
  let off (q : StopReq) : StopReq := { evict := q.evict, leader := q.leader && q.evict }
  let s := s.modTile g (fun t => (t.modThread 0 on).modThread 1 on)
  ((s.release g 0 off).release g 1 off).unstopTile g

/-- A saved tile over what the hardware keeps. -/
def restoreTile (old new : Tile) : Tile :=
  replayTile { thr := new.thr.map (fun p => (p.1, p.2.modRun (fun q => { q with seq := (old.thread p.1).run.seq }))), r := new.r,
                e := { new.e with nextId := max old.e.nextId new.e.nextId, copySerial := max old.e.copySerial new.e.copySerial,
                                  copies := new.e.copies.map (fun c => { c with st := .accepted }) },
                rt := { old.rt with bufs := new.rt.bufs.foldl (fun b x => b.modify x.1 [] (fun l => l ++ x.2)) old.rt.bufs },
                c := { old.c with poison := new.c.poison, stopped := new.c.stopped, landStop := false } }

/-- A saved cluster over what the hardware keeps. The region's own launch rights become 0xFFFF, though they were narrower when it was saved: the
island may want narrower ones, and the rule does not say which it then restores (DESIGN CHOICE, assumption 118). -/
def restoreCluster (id : Nat) (old new : Cluster) : Cluster :=
  { new with region := id, access := ([(id, 15)] : Tab Nat), lright := new.lright.put id 65535,
             ageOvr := old.ageOvr, overruns := old.overruns, overrunTimes := old.overrunTimes, timerLast := old.timerLast, mhz := old.mhz, eff := old.eff,
             cycAnchor := old.cycAnchor, timeAnchor := old.timeAnchor, stepN := old.stepN, stalls := old.stalls,
             stepStart := old.stepStart, wakes := old.wakes, spareRow := old.spareRow, badRows := old.badRows, defRow := old.defRow,
             off := old.off }

/-- The restore of a context onto its clusters, in the order of R363; its threads run once all of it is there. -/
def State.restoreContext (s : State) (r : Nat) (v : Saved) : State :=
  let q := s.region r
  let v := s.readArea r v
  let s := (s.unload r).modRegion r (fun q => { q with landHalt := false, landFree := [] })
  let s := v.held.foldl (fun s x => s.modIsland (islandOfCluster x.1) (fun i => { i with heldRecs := i.heldRecs ++ [x] })) s
  let s := q.clusters.foldl (fun s c => s.modCluster c (fun k => restoreCluster (regId r) k (Tab.look v.clusters c {}))) s
  -- every target of the region: its edge ports, and the user windows of the islands of its blocks (R372)
  let targets := q.ports.map (edgeHome (regWafer r)) ++ (q.clusters.map islandOfCluster).eraseDups.map islandHome
  let s := targets.foldl (fun s p => s.modHome p (fun h => { h with access := h.access.put (regId r) 15 })) s
  let s := v.tiles.foldl (fun s p => s.modTile p.1 (fun t => restoreTile t p.2)) s
  let s : State := { s with mem := v.pads.foldl (fun m c => m.write c.1 c.2) s.mem }
  let s := s.touchPads q.clusters
  let s := (v.tiles.map (·.1)).foldl State.wakeThreads s
  (v.clusters.map (·.1)).foldl (fun s c =>
    if (s.cluster c).queues.any (fun x => !x.2.isEmpty) then s.raise c ⟨2, 0, 0, 0, 0⟩ else s) s

/-! Termination (17 R370) -/

/-- CMD TERMINATE, FAULT action 2 and the failures that end a context: its threads stop, sections or not. -/
def State.beginTerminate (s : State) (r : Nat) : State :=
  if (s.region r).ten = ctxRunning ∨ (s.region r).ten = ctxDraining ∨ (s.region r).ten = ctxSaving then
    ((s.pauseTime r).modRegion r (fun q => { q with ten := ctxTerminating, sliceOver := false })).stopRegionNow r
  else s

/-- The packets of a tile's landing queue are aborted with code 0x80. -/
def State.abortPackets (s : State) (g : Nat) : State :=
  let e := (s.tile g).e
  let s := if e.landNow.isSome then (s.dropPacket g 0x80).idleT2 g else s
  e.landQ.foldl (fun s p => ((s.modTile g (fun t => t.modEng (fun e => { e with landNow := some p, landQ := e.landQ.drop 1 }))).dropPacket g 0x80)) s

/-- May the termination finish: injected accesses and claimed units are done? -/
def State.termDrained (s : State) (r : Nat) : Bool :=
  (s.regionTiles r).all (fun g =>
    (s.thread g 0).run.outs.isEmpty && (s.thread g 1).run.outs.isEmpty && s.allStopped r && (s.tile g).e.units.isEmpty && !(s.tile g).c.proofing)

/-- The debugger leaves a region (21 R427, R428): breakpoints clear, halted threads run on, an evicted one when it is dispatched again. -/
def State.detachDebug (s : State) (r : Nat) : State :=
  let free (w : Swapped) : Swapped := { w with saved := w.saved.undebug }
  let s := s.modRegion r (fun q => { q with dbgEn := false, landHalt := false, landFree := [], swaps := q.swaps.map (fun p => (p.1, free p.2)) })
  (s.regionTiles r).foldl (fun s g =>
    ((s.modTile g (fun t => t.modCtl (fun c => { c with brk := [] }))).debugResume g 0).debugResume g 1) s

/-- The tenant's grant is gone (21 R427). -/
def State.clearGrant (s : State) (r : Nat) : State :=
  let s := s.modRegion r (fun q => { q with dbgAllowed := false })
  if (s.wafer (regWafer r)).life = .secured ∧ (s.region r).dbgEn = true then s.detachDebug r else s

/-- A thread gives up what it runs for a tenant that is gone: nothing of it is returned (08 R198, 17 R370). -/
def State.abandonOne (s : State) (g h : Nat) : State :=
  let s := s.modTile g (fun t => t.modEng (fun e =>
    let e := { e with copies := e.copies.filter (fun c => c.thread != h) }
    if h = 0 then { e with mq := [], mprogV := false, mprogAcc := 0, mprogRows := 0 } else e))
  ((s.dropUnsent g h).modThread g h (fun t => t.modRegs (fun q => { q with weight := 0 }))).idleThread g h

/-- A leader's members, attached or detached, give up with it. -/
def State.abandon (s : State) (g h : Nat) : State :=
  let ms := if h = 0 then s.membersIn g .attached ++ s.membersIn g .detached else []
  let s := if h = 0 then ms.foldl (fun s m => s.modTile m (fun t => t.modEng (fun e => { e with mq := [], mprogV := false, mprogAcc := 0, mprogRows := 0 })))
    s |>.breakUp g else s
  (ms.foldl (fun s m => if (s.thread m 0).run.ts == .idle then s else s.abandonOne m 0) s).abandonOne g h

/-- The records and tasks of a tenant that is gone are dropped in another region's cluster as it was saved (08 R198). -/
def Saved.without (v : Saved) (mine : TaskRec → Bool) : Saved :=
  let mineRun (t : Thread) : Bool := match t.run.task with | some i => mine i.tr | none => false
  { v with
    clusters := v.clusters.map (fun c => (c.1, { c.2 with queues := c.2.queues.map (fun q => (q.1, q.2.filter (fun x => !mine x.tr))) })),
    tiles := v.tiles.map (fun t => (t.1, { t.2 with thr := t.2.thr.map (fun h => (h.1, if mineRun h.2 then h.2.idled else h.2)) })),
    held := v.held.filter (fun x => !mine x.2) }

/-- The records and tasks of a tenant that is gone are dropped everywhere on its wafer (08 R198): queued, held by an island, under way, running
in a cluster of another region, saved or swapped out there. -/
def State.dropTenant (s : State) (r : Nat) : State :=
  let mine (t : TaskRec) : Bool := recRegion t.dw2 == regId r
  let here (c : Nat) : Bool := c / 3072 == regWafer r
  -- a loaded context's own clusters are unloaded with it
  let own := if (s.region r).ten = ctxUnloaded then [] else (s.region r).clusters
  let cs := ((s.clusters : List (Nat × Cluster)).filter (fun p => here p.1 && !own.contains p.1 && p.2.queues.any (fun q => q.2.any (fun x => mine x.tr)))).map (·.1)
  let s := cs.foldl (fun s c =>
    let s := s.modCluster c (fun k => { k with queues := k.queues.map (fun q => (q.1, q.2.filter (fun x => !mine x.tr))) })
    (upTo 16 (fun q s => s.settle c q) s).checkHeads c) s
  let s : State := { s with
    islands := s.islands.map (fun (p : Nat × Island) =>
      (p.1, if p.1 / 48 = regWafer r then { p.2 with heldRecs := p.2.heldRecs.filter (fun x => !mine x.2) } else p.2)),
    tiles := s.tiles.map (fun (p : Nat × Tile) => (p.1, p.2.modRouter (fun q =>
      { q with bufs := q.bufs.map (fun b => (b.1, b.2.filter (fun m => !(m.kind == 2 && ofRegion r m)))) }))),
    homes := s.homes.map (fun (p : Nat × HomeSt) => (p.1, { p.2 with inbox := p.2.inbox.filter (fun m => !(m.kind == 2 && ofRegion r m)) })) }
  let s : State := { s with
    oxsor := s.oxsor.map (fun p => (p.1, { p.2 with queue := p.2.queue.filter (fun m => !(m.kind == 2 && ofRegion r m)) })),
    regions := s.regions.map (fun (p : Nat × Region) => (p.1,
      if p.1 = r ∨ regWafer p.1 ≠ regWafer r then p.2
      else { p.2 with saved := p.2.saved.map (·.without mine),
                      swaps := p.2.swaps.filter (fun w => !(match w.2.saved.run.task with | some i => mine i.tr | none => false)) })) }
  let runs (g h : Nat) : Bool := match (s.thread g h).run.task with | some i => mine i.tr | none => false
  let ts := ((s.tiles.map (·.1)).filter (fun g => waferOf g == regWafer r && !own.contains (clusterOf g)))
  (ts.map (fun g => [(g, 0), (g, 1)])).flatten.foldl (fun (s : State) (x : Nat × Nat) => if runs x.1 x.2 then s.abandon x.1 x.2 else s) s

/-- Steps 2 to 6 of R370, once the accesses have drained. The domains become FREE with their clusters' tables. -/
def State.finishTerminate (s : State) (r : Nat) : State :=
  let cs := (s.region r).clusters
  let s := (s.regionTiles r).foldl (fun s g => s.abortPackets g) s
  let s := s.clearGrant r
  let s := ((s.dropTenant r).unload r).touchPads cs
  let gone (i : Island) : Island :=
    { i with heldRecs := i.heldRecs.filter (fun x => !cs.contains x.1), nvme := i.nvme.map (fun x => (x.1, if x.2.region = r then {} else x.2)) }
  let s := { s with islands := s.islands.map (fun (p : Nat × Island) => (p.1, if p.1 / 48 = regWafer r then gone p.2 else p.2)),
                    homes := s.homes.map (fun (p : Nat × HomeSt) =>
                      (p.1, if isTileHome p.1 || isEdgeHome p.1 then p.2 else { p.2 with inbox := p.2.inbox.filter (fun m => !ofRegion r m) })) }
  (s.modRegion r (fun q => { q with ten := ctxFree, busy := false, saved := none, swaps := [], files := [], reserved := none, commitPend := false,
                                    hangSince := none, hangRaised := false, endAfterLoad := false })).notice (s.policing r (regWafer r * 48)) 0x70 r

/-- A termination from any state (R358). -/
def State.terminate (s : State) (r : Nat) : State :=
  let q := s.region r
  if q.ten = ctxUnloaded then
    let s := (s.dropTenant r).clearGrant r
    -- calls and allocations that wait for the context end with it (17 R370)
    let s : State := { s with homes := s.homes.map (fun (p : Nat × HomeSt) =>
      (p.1, if isTileHome p.1 || isEdgeHome p.1 then p.2 else { p.2 with inbox := p.2.inbox.filter (fun m => !ofRegion r m) })) }
    s.modRegion r (fun q => { q with ten := ctxFree, saved := none, swaps := [], files := [], reserved := none })
  else
    let s := s.beginTerminate r
    if (s.region r).ten = ctxTerminating ∧ s.termDrained r then s.finishTerminate r else s

/-- CMD TERMINATE (R357): ignored while a command is in progress, and in progress until the context is FREE. -/
def State.tenTerminate (s : State) (region : Nat) : State :=
  if (s.region region).busy then s
  else
    let s := s.terminate region
    if (s.region region).ten = ctxTerminating then s.modRegion region (fun q => { q with busy := true }) else s

def execTenCtlTerminate (region : Nat) (s : State) : Host.Outcome State Fault Refusal := .next (s.tenTerminate region)

/-! Load, save, slices (17 R357, R360, R369) -/

/-- No other loaded context holds one of the region's clusters or ports (17 R356, R371). -/
def State.clustersFree (s : State) (r : Nat) : Bool :=
  let q := s.region r
  (s.regions : List (Nat × Region)).all (fun p => p.1 == r || decide (p.2.ten < 2) || regWafer p.1 != regWafer r ||
    (!p.2.clusters.any q.clusters.contains && !p.2.ports.any q.ports.contains))

/-- CMD LOAD (R357, R358, R369): the context becomes LOADING. -/
def State.tenLoad (s : State) (region : Nat) : State :=
  let q := s.region region
  if q.busy ∨ q.ten ≠ ctxUnloaded ∨ !s.clustersFree region ∨ q.saved = none then s
  else if q.sliceLen ≠ 0 ∧ q.sliceLen ≤ q.debt then s.modRegion region (fun q => { q with debt := q.debt - q.sliceLen })
  else s.modRegion region (fun q => { q with ten := ctxLoading, busy := true })

/-- The restore is complete: the context is RUNNING and its slice starts. -/
def State.finishLoad (s : State) (region : Nat) : State :=
  let q := s.region region
  match if s.areaClaimed region then none else q.saved with
  | none => s
  | some v =>
    let s := ((s.restoreContext region v).resumeTime region).modRegion region (fun q =>
      { q with ten := ctxRunning, busy := false, saved := none, sliceStart := s.now, grant := q.sliceLen - q.debt, debt := 0, sliceOver := false,
               endAfterLoad := false })
    -- a reset of its function that came meanwhile (R377)
    if q.endAfterLoad then (s.terminate region).modRegion region (fun q => { q with busy := q.ten == ctxTerminating }) else s

/-- TEN_CTL_LOAD: the command; for a context that is LOADING, the end of its restore (two steps: DESIGN CHOICE, assumption 109). -/
def execTenCtlLoad (region : Nat) (s : State) : Host.Outcome State Fault Refusal :=
  .next (if (s.region region).ten = ctxLoading then s.finishLoad region else s.tenLoad region)

/-- Does a section defer a stop of the region? -/
def State.deferred (s : State) (r : Nat) : Bool :=
  (s.regionTiles r).any (fun g => [0, 1].any (fun h => !(s.thread g h).run.ts.atRest && decide (0 < (s.thread g h).run.npd)))

/-- The context starts to drain. Where a section defers the stop, the time past the slice is charged later (R369). -/
def State.beginDrain (s : State) (r : Nat) : State :=
  let s := ((s.pauseTime r).modRegion r (fun q => { q with ten := ctxDraining })).stopRegion r (fun x => { x with slice := true })
  if s.deferred r then s.modRegion r (fun q => { q with sliceOver := true }) else s

def State.tenSave (s : State) (region : Nat) : State :=
  let q := s.region region
  if q.busy ∨ q.ten ≠ ctxRunning then s else (s.beginDrain region).modRegion region (fun q => { q with busy := true })

def execTenCtlSave (region : Nat) (s : State) : Host.Outcome State Fault Refusal := .next (s.tenSave region)

/-- SLICE_EXPIRY: the slice falls due. Threads in a section stop later, which the next slice pays for. -/
def execSliceExpiry (region : Nat) (s : State) : Host.Outcome State Fault Refusal :=
  let q := s.region region
  .next (if q.ten ≠ ctxRunning ∨ q.sliceLen = 0 ∨ s.now < q.sliceStart + q.grant then s
    else s.beginDrain region)

/-- DRAIN_COMPLETE: the save, of a context that is SAVING its end (assumption 109), or the end of a termination. -/
def execDrainComplete (region : Nat) (s : State) : Host.Outcome State Fault Refusal :=
  let q := s.region region
  .next (if q.ten = ctxDraining then
      if s.tilesDrained region ∧ s.netDrained region ∧ !s.areaClaimed region then (s.noteDebt region).saveContext region else s
    else if q.ten = ctxSaving then s.modRegion region (fun q => { q with ten := ctxUnloaded, busy := false })
    else if q.ten = ctxTerminating ∧ s.termDrained region then s.finishTerminate region else s)

/-- DRAIN_TIMEOUT: a program-VC message has stayed outside the region's clusters for 100 µs. -/
def execDrainTimeout (region : Nat) (s : State) : Host.Outcome State Fault Refusal :=
  let late (m : Msg) : Bool := ofRegion region m && decide (m.vc ≤ 11) && (match m.left with | some t => decide (t + 100000 ≤ s.now) | none => false)
  .next (if (s.region region).ten = ctxDraining ∧ s.flying.any late then s.beginTerminate region else s)

/-- GT_SAVED_WRITE (19 R406). -/
def State.writeGtSaved (s : State) (region value : Nat) : State :=
  if (s.region region).ten ≤ 1 then s.modRegion region (fun q => { q with gtSaved := max q.gtSaved (value % 18446744073709551616) }) else s

def execGtSavedWrite (region value : Nat) (s : State) : Host.Outcome State Fault Refusal := .next (s.writeGtSaved region value)

/-- NPOVR_READ (17 R357). -/
def execNpovrRead (region : Nat) (s : State) : Host.Outcome State Fault Refusal :=
  .next ({ s with ioRead := (s.region region).npovr }.modRegion region (fun q => { q with npovr := 0 }))

/-! Sections (17 R368) -/

/-- NP_LIMIT_OVERRUN: a section has passed the limit, counted once. -/
def execNpLimitOverrun (s : State) : Host.Outcome State Fault Refusal :=
  let r := s.regionOf s.focus.tile
  let t := s.me.run
  .next (if 0 < t.npd ∧ t.npOver = false ∧ (s.region r).npLimit < t.secTime then
      (s.modMe (fun t => t.modRun (fun q => { q with npOver := true }))).modRegion r (fun q => { q with npovr := min (q.npovr + 1) 4294967295 })
    else s)

/-- NP_WATCHDOG: a section has reached four times the limit; the thread traps at its boundary or where it sleeps. -/
def execNpWatchdog (s : State) : Host.Outcome State Fault Refusal :=
  let r := s.regionOf s.focus.tile
  let t := s.me.run
  .next (if 0 < t.npd ∧ 4 * (s.region r).npLimit ≤ t.secTime ∧ !t.ts.atRest then
      s.trapSoon s.focus.tile s.focus.thread ⟨0x28, 0, 0, s.me.r.pc,
        match t.rep with | some r => r.word | none => s.mem.readNat (padKey s.focus.tile (pcOff s.me.r.pc)) 4, false, s.me.repMark⟩
    else s)

/-! Evicted tasks (08 R207, 17 R366, 09 R233) -/

/-- Free swap slots of a cluster. -/
def State.freeSlots (s : State) (c : Nat) : List Nat :=
  let q := s.region ((c / 3072) * 256 + (s.cluster c).region)
  (List.range q.swapN).filter (fun n => (q.swaps.find (c * 65536 + n)).isNone)

/-- The threads that an eviction of a thread takes out: its own, or every member of the gathering, the leader first. -/
def State.evictees (s : State) (g h : Nat) : List (Nat × Nat) :=
  if h = 1 then [(g, 1)]
  else
    let l := s.leaderOf g
    (l, 0) :: ((s.membersIn l .attached ++ s.membersIn l .detached ++ s.membersIn l .left).map (fun m => (m, 0)))

/-- An eviction: the task's threads stop; without free slots it is ignored and reported. -/
def State.evict (s : State) (g h : Nat) : State :=
  let g := if h = 0 then s.leaderOf g else g
  let ts := (s.thread g h).run.ts
  if ts.atRest then s
  else if (s.freeSlots (clusterOf g)).length < (s.evictees g h).length then s.notice (islandOf g) 0x63 (s.nameOf g)
  else (s.evictees g h).foldl (fun s x => s.askStop x.1 x.2 (fun q => { q with evict := true })) s

/-- Is a stopped thread ready to be saved: no fault of it left to resolve (16 R350), its accesses complete, its borrow granted, its returns sent
(10 R243), its claimed units landed? -/
def State.evictReady (s : State) (g h : Nat) : Bool :=
  let t := s.thread g h
  let own (c : CopyEntry) : Bool := c.thread == h
  (t.run.ts == .stopped || t.run.gather.role == .left) && !t.run.failed && !(s.tile g).e.returns.any (fun x => x.1 == h) && t.run.outs.all (s.tile g).allUnsent && t.run.give != .asked &&
  (s.tile g).e.copies.all (fun c => !own c || (c.st != .increment && !(s.tile g).e.units.any (fun u => u.serial == c.serial)))

/-- What a swap slot holds of a thread (R366). -/
def State.swapOut (s : State) (g h : Nat) : Swapped :=
  let t := s.tile g
  { tile := g, thread := h, saved := t.thread h, tregs := if h = 0 then t.r else {}, mq := if h = 0 then t.e.mq else [],
    mprogV := h == 0 && t.e.mprogV, mprogAcc := if h = 0 then t.e.mprogAcc else 0, mprogRows := if h = 0 then t.e.mprogRows else 0,
    copies := t.e.copies.filter (fun c => c.thread == h), unsent := t.e.unsent.filter (fun u => u.msg.sthr == h), members := [] }

/-- The thread is gone from the tile: IDLE, without its matrix entries, its copy requests, the accesses it had not injected and the weight
that is now in its saved context (08 R207). -/
def State.clearOut (s : State) (g h : Nat) : State := s.abandonOne g h

/-- EVICTION_SAVE: the evicted task in focus has stopped and drained; it goes to swap slots, and its resume record to its queue. A thread without
a task (an island start, 01 R27) has no queue to return to, and the rule is silent on it: its eviction stops it, and it stays STOPPED (DESIGN
CHOICE, assumption 119). -/
def execEvictionSave (s : State) : Host.Outcome State Fault Refusal :=
  let g := s.focus.tile
  let h := s.focus.thread
  let c := clusterOf g
  let r := s.regionOf g
  let es := s.evictees g h
  let slots := s.freeSlots c
  .next (match s.me.run.task with
    | none => s
    | some t =>
      if s.me.run.stop.evict = false ∨ !es.all (fun x => s.evictReady x.1 x.2) then s
      else if slots.length < es.length then
        (es.foldl (fun s x => (s.release x.1 x.2 (fun q => { q with evict := false })).pump x.1) s).notice (islandOf g) 0x63 (s.nameOf g)
      else
        let keys := (slots.take es.length).map (fun n => c * 65536 + n)
        if keys.any (fun k => s.slotClaimed r c (k % 65536)) then s else
        let members := ((es.zip keys).drop 1).map (fun x => (x.1.1 - g, x.2))
        -- LV, LEXP and LDOM of a resume record are none: the weight stays in the saved context (08 R187)
        let rec_ : TaskRec := { t.tr with dw2 := recWith t.tr.dw2 (recRegion t.tr.dw2) false 0 0, enqueued := s.now,
                                          guest := s.guestTime (waferOf g * 256 + recRegion t.tr.dw2), sent := s.perf, reserved := true, resume := keys.head? }
        let s := (es.zip keys).foldl (fun s x =>
          let w := { s.swapOut x.1.1 x.1.2 with members := if x.1.1 = g then members else [] }
          (({ s with mem := s.writeSwap r c (x.2 % 65536) w (x.1.1 == g && !members.isEmpty) s.mem }.touchEdge (regWafer r)
            (s.swapPa r c (x.2 % 65536)) 16384).modRegion r (fun q => { q with swaps := q.swaps.put x.2 w }))) s
        let s := es.foldl (fun s x => s.clearOut x.1 x.2) s
        s.enqueueReserved c (recQueue t.tr.dw2) rec_)

/-- A swapped thread runs on; one that the debugger or the island has stopped meanwhile stays STOPPED (21 R428). -/
def Thread.swappedIn (t : Thread) : Thread :=
  let q : StopReq := { island := t.run.stop.island, debug := t.run.stop.debug }
  if q = {} ∧ t.run.dbg.halted = false then t.resumed else t.modRun (fun r => { r with stop := q })

/-- A swapped thread back on its tile. -/
def State.swapIn (s : State) (r key : Nat) : State :=
  match (s.region r).swaps.find key with
  | none => s
  | some w =>
    let w := s.readSwap r key w
    let s := s.modRegion r (fun q => { q with swaps := q.swaps.del key })
    let s := s.modTile w.tile (fun t =>
      -- the requests re-enter the FIFO in their order, and keep their numbers, which `cqctl.wait` goes by (15 R311, R321)
      let back := w.copies.map (fun c => { c with st := CopyState.accepted })
      let t := t.modEng (fun e => { e with copies := e.copies ++ back, unsent := e.unsent ++ w.unsent.map (fun u => { u with replay := true }) })
      if w.thread = 0 then
        { t with r := { w.tregs with lhtbase := t.r.lhtbase },
                 e := { t.e with mq := w.mq, mprogV := w.mprogV, mprogAcc := w.mprogAcc, mprogRows := w.mprogRows } }
      else t)
    let replays (o : Out) : Out := if (s.tile w.tile).allUnsent o then { o with replay := true } else o
    s.modThread w.tile w.thread (fun t => w.saved.swappedIn.modRun (fun q => { q with seq := t.run.seq, outs := q.outs.map replays }))

/-- The dispatch of a record to a thread: a task start, or the return of an evicted task with every member of its gathering. -/
def State.startRec (s : State) (g h : Nat) (t : TaskRec) : State :=
  match t.resume with
  | none => s.startTask g h t
  | some k =>
    let r := s.regionOf g
    let ms := match (s.region r).swaps.find k with | some w => w.members | none => []
    let s := ms.foldl (fun s m => s.swapIn r m.2) (s.swapIn r k)
    s.modThread g h (fun x => x.modRun (fun q => { q with task := q.task.map (fun i => { i with tr := t }) }))

end Sys2Proof.Machine
end

