-- ==== Sys2Proof/Machine/Faults.lean ====
section
/-!
DEFINITION. What follows a fault (16 R346 to R355): the actions, the island's resolution, errors without a trap, quarantine and repair;
tile reset (01 R27).
-/
namespace Sys2Proof.Machine

/-! Ending a task (16 R346) -/

/-- Discards the queued matrix entries of a tile; committed rows stay (06 R146). -/
def State.dropMatrix (s : State) (g : Nat) : State :=
  s.modTile g (fun t => t.modEng (fun e => { e with mq := [], mprogV := false, mprogAcc := 0, mprogRows := 0 }))

/-- Returns a thread's held weight (10 R243). -/
def State.returnAll (s : State) (g h : Nat) : State := s.returnHeld g h

/-- The task of a thread ends, or the leader's task with its gathering; the thread itself becomes IDLE too. An IDLE thread has none. -/
def State.killTask (s : State) (g h : Nat) : State :=
  if (s.thread g h).run.isIdle then s
  else if h = 0 then
    let l := s.leaderOf g
    let lead := (s.thread l 0).run.gather.role == .leader
    let s := if lead then (s.membersIn l .attached).foldl (fun s m => s.dropMatrix m) s else s
    let s := if lead then s.breakUp l else s
    let s := ((s.dropMatrix l).returnAll l 0).idleThread l 0
    if g = l ∨ (s.thread g 0).run.ts = .idle then s else ((s.dropMatrix g).returnAll g 0).idleThread g 0
  else (s.returnAll g h).idleThread g h

/-- The other t0 and t1 of a tile return to their state before the stop. -/
def State.freeTile (s : State) (g h : Nat) : State := (s.release g (1 - h) (fun q => { q with fault := false })).unstopTile g

/-- The task as dispatched, for a retry: the weight that travels with it, and the rest returned (08 R209). -/
def State.retryTask (s : State) (g h : Nat) : State :=
  let l := if h = 0 then s.leaderOf g else g
  match (s.thread l h).run.task with
  | none => s.killTask g h
  | some t =>
    let r := (s.thread l h).r
    let w := r.weight
    let share := if w = 0 then 0 else 2 ^ Nat.log2 w
    let d2 := recWith t.tr.dw2 (recRegion t.tr.dw2) (decide (0 < w)) (62 - Nat.log2 w) r.qwDom
    let s := s.modThread l h (fun x => x.modRegs (fun q => { q with weight := w - share }))
    (s.killTask g h).enqueueReserved (clusterOf l) (recQueue t.tr.dw2)
      { t.tr with dw2 := d2, enqueued := s.now, guest := s.guestTime (waferOf l * 256 + recRegion d2), sent := s.perf, reserved := true, resume := none }

/-! Returns by the hardware and the island (10 R252, R253, 16 R352) -/

def State.returnWeightOf (s : State) (c dom w : Nat) : State := (weightBits w).foldl (fun s b => s.returnShare c dom (62 - b)) s

/-- The roots whose ACTIVE domains are picked become LOST, and the `qwdone` that wait for them go on (10 R238, R249). -/
def State.loseDomains (s : State) (p : Nat → DomEntry → Bool) : State :=
  let hit : List (Nat × Nat) := (s.clusters.map (fun (x : Nat × Cluster) =>
    x.2.domains.filterMap (fun y => if y.2.here && y.2.state == 1 && p x.1 y.2 then some (nameTile y.2.root, y.1) else none))).flatten
  hit.foldl (fun s x => s.loseDomain x.1 x.2) s

/-! Quarantine (16 R352) -/

/-- Quarantined and not yet repaired or made a hole; repaired, its name the wafer's no more (18 R389). -/
def TileCtl.awaitsRepair (c : TileCtl) : Bool := c.quarantined && c.dead && !c.hole
def TileCtl.repaired (c : TileCtl) : Bool := c.gen.isSome && !c.dead && !c.hole

/-- A retirement entry (07 R167). -/
def retEntry (s : State) (g : Nat) (dead : Bool) : Word64 :=
  BitVec.ofNat 64 (9223372036854775808 + bit dead 62 + s.nameOf g)

/-- The entries that the islands load into the routers of a wafer, in the order of 18 R389. It orders class 2 alone; within another class
the lower tile number goes first (DESIGN CHOICE, assumption 121). -/
def retireList (s : State) (w : Nat) : List Word64 :=
  let newest (a b : Nat × Tile) : Bool := decide (b.2.c.retiredAt < a.2.c.retiredAt)
  let cls (p : Nat × Tile → Bool) : List (Nat × Tile) := s.tiles.filter (fun x => p x && s.inSystem w (waferOf x.1))
  let own (l : List (Nat × Tile)) : List (Nat × Tile) := l.filter (fun x => waferOf x.1 == w)
  let far (l : List (Nat × Tile)) : List (Nat × Tile) := l.filter (fun x => waferOf x.1 != w)
  let c1 := cls (fun x => x.2.c.awaitsRepair)
  let c2 := sortBy newest (cls (fun x => x.2.c.repaired))
  let c3 := cls (fun x => x.2.c.hole)
  let f (dead : Bool) (l : List (Nat × Tile)) : List Word64 := l.map (fun x => retEntry s x.1 dead)
  (f true (own c1) ++ f false (own c2) ++ f true (own c3) ++ f true (far c1) ++ f false (far c2) ++ f true (far c3)).take 64

/-- The entries of class 2 for a wafer do not all fit beside those of class 1 (18 R389). -/
def State.retireOver (s : State) (w : Nat) : Bool :=
  let count (p : TileCtl → Bool) : Nat := (s.tiles.filter (fun x => waferOf x.1 == w && p x.2.c)).length
  decide (0 < count (·.repaired)) && decide (64 < count (·.awaitsRepair) + count (·.repaired))

/-- The islands load the retirement entries into every router of the system, and schedule the advance of a wafer whose entries do not fit. -/
def State.loadRetired (s : State) : State :=
  { s with
    wafers := s.wafers.map (fun (p : Nat × Wafer) =>
      (p.1, { p.2 with nameRet := (retireList s p.1).zipIdx.map (fun (v, i) => (i, v)), advanceDue := p.2.advanceDue || s.retireOver p.1 })),
    tiles := s.tiles.map (fun (p : Nat × Tile) => (p.1, { p.2 with rt := { p.2.rt with nameRet := [] } })) }

/-- Every router that holds a message for the coordinate discards it with an error (R352). -/
def State.refuseHeld (s : State) (g : Nat) : State :=
  let held := s.tiles.map (fun (p : Nat × Tile) => (p.1, (p.2.rt.bufs.map (fun b => b.2.filter (fun m => m.dstHome == g))).flatten))
  let s := { s with tiles := s.tiles.map (fun (p : Nat × Tile) =>
      (p.1, { p.2 with rt := { p.2.rt with bufs := p.2.rt.bufs.map (fun b => (b.1, b.2.filter (fun m => m.dstHome != g))) } })) }
  held.foldl (fun s x => x.2.foldl (fun s m => s.refuse x.1 m 1) s) s

/-- A dropped resume record: the weight in its swap slots returns, and the slots are free (10 R251, 16 R352). -/
def State.dropSwap (s : State) (c key : Nat) : State :=
  let r := c / 3072 * 256 + (s.cluster c).region
  let one (s : State) (k : Nat) : State :=
    match (s.region r).swaps.find k with
    | none => s
    | some w =>
      let back := s.returnWeightOf c w.saved.r.qwDom w.saved.r.weight
      let back := w.copies.foldl (fun s x => s.returnWeightOf c x.dom x.share) back
      back.modRegion r (fun q => { q with swaps := q.swaps.del k })
  let ms := match (s.region r).swaps.find key with | some w => w.members.map (·.2) | none => []
  (key :: ms).foldl one s

/-- The queued records whose target is the tile are dropped, their weight returned (R352). -/
def State.dropRecords (s : State) (g : Nat) : State :=
  let c := clusterOf g
  let hit (r : QRec) : Bool := r.tr.target == some (localOf g)
  let lost := ((s.cluster c).queues.map (fun q => q.2.filter hit)).flatten
  let s := s.modCluster c (fun k => { k with queues := k.queues.map (fun q => (q.1, q.2.filter (fun r => !hit r))) })
  let s := lost.foldl (fun s r =>
    let s := s.notice (islandOfCluster c) 0x60 c
    match r.tr.resume with
    | some k => s.dropSwap c k
    | none => if recLv r.tr.dw2 then s.returnShare c (recDom r.tr.dw2) (recLexp r.tr.dw2) else s) s
  if lost.isEmpty then s else (upTo 16 (fun q s => s.settle c q) s).checkHeads c

/-- A landing packet as the message that brought it. -/
def Packet.asMsg (p : Packet) (g name : Nat) : Msg :=
  { dst := name, src := p.src, dstHome := g, srcHome := p.srcHome, vc := 13, kind := 5, lv := false, lexp := 0,
    len := 1 + (p.bytes + 15) / 16, region := p.region, handler := p.hid, seq := p.seq, sthr := p.sthr, aux := 0,
    body := .packet p.addr p.bytes p.data p.row p.unit }

/-- What a dead coordinate has not yet performed is refused (R355): the requests and packets at it, those of its landing queue too, so that
their copies are abandoned (15 R320, 18 R394). -/
def State.refuseInbox (s : State) (g : Nat) : State :=
  let e := (s.tile g).e
  let ms := (s.home g).inbox ++ (e.landNow.toList ++ e.landQ).map (fun p => p.asMsg g (s.nameOf g))
  let s := (s.modHome g (fun q => { q with inbox := [], claims := [] })).modTile g (fun t => t.modEng (fun e => { e with landQ := [], landNow := none }))
  ms.foldl (fun s m => s.refuse g m 1) s

/-- A dead tile runs nothing (17 R371): t0 and t1 stop for good, t2 ends with its packet refused, and what the tile had not sent is gone. -/
def State.restTile (s : State) (g : Nat) : State :=
  let halt (s : State) (h : Nat) : State :=
    let s := (s.endStall g h).modThread g h (fun t => t.modRun (fun r => { r with due := [], fences := [], stop := { r.stop with fault := true } }))
    if (s.thread g h).run.ts == .idle then s.modThread g h (fun t => t.modRun (fun r => { r with stop := {} })) else s.stopThread g h
  let s := (halt (halt s 0) 1).idleT2 g
  let s := [0, 1].foldl (fun s h => s.modThread g h (fun t => t.modRun (fun r => { r with outs := [] }))) s
  (s.modTile g (fun t => t.modEng (fun e =>
    { e with mq := [], unsent := [], walks := [], returns := [], copies := [], units := [] }))).noteDebt (s.regionOf g)

/-- A coordinate becomes dead at once: a dead home holds no reservation, and its watches are lost (14 R304). -/
def State.quarantine (s : State) (g : Nat) : State :=
  let s := s.modTile g (fun t => { t with c := { t.c with quarantined := true, dead := true }, rt := { t.rt with closed := true } })
  let s := s.modHome g (fun h => { h with watches := [], lost := h.lost ++ h.watches, resv := [] })
  ((((s.restTile g).refuseInbox g).loadRetired.refuseHeld g).dropRecords g).notice (islandOf g) 0x64 (s.nameOf g)

/-- A correctable error is corrected in place and counted (16 R351). -/
def State.countCorrected (s : State) (g : Nat) : State := s.modTile g (fun t => t.modCtl (fun c => { c with corrected := c.corrected + 1 }))

/-- What the island saves of a dead tile's weight (10 R253): held weight, waiting returns, copies' shares, spilled records. -/
def State.salvage (s : State) (g : Nat) : State :=
  let c := clusterOf g
  let t := s.tile g
  let one (s : State) (h : Nat) : State :=
    let r := (t.thread h).r
    (s.returnWeightOf c r.qwDom r.weight).modThread g h (fun x => x.modRegs (fun q => { q with weight := 0 }))
  let s := one (one s 0) 1
  let s := t.e.returns.foldl (fun s x => s.returnShare c x.2.2.1 (62 - x.2.1)) s
  let s := t.e.copies.foldl (fun s x => s.returnWeightOf c x.dom x.share) s
  let s := s.modTile g (fun t => t.modEng (fun e => { e with returns := [], copies := [], units := [] }))
  if (s.cluster c).spillTile = localOf g ∧ 0 < (s.cluster c).spillN then
    let spilled := ((s.cluster c).queues.map (fun q => q.2.filter (fun r => r.spill.isSome))).flatten
    let held := spilled.map (fun r => (c, s.readSpill c (recQueue r.tr.dw2) (r.spill.getD 0) r.tr))
    (s.modCluster c (fun k => { k with queues := k.queues.map (fun q => (q.1, q.2.filter (fun r => r.spill.isNone))) })).modIsland
      (islandOfCluster c) (fun d => { d with heldRecs := d.heldRecs ++ held })
  else s

/-- Does the path of a message to home `h` that stands at router `x` pass router `g`, under the current route tables? -/
def State.pathVisits (s : State) (g h : Nat) : Nat → Nat → Bool → Bool
  | 0, _, _ => false
  | n + 1, x, esc =>
    x == g ||
    (let (out, esc', _) := s.routeOf x esc h
     if 3 < out then false
     else match neighbour x out with
       | some y => State.pathVisits s g h n y esc'
       | none => false)

/-- Does a route between two of a region's tiles and ports pass the router of the coordinate? -/
def State.routesPass (s : State) (r g : Nat) : Bool :=
  let q := s.region r
  let hs := (q.clusters.map clusterTiles).flatten ++ q.ports.map (edgeHome (regWafer r))
  regWafer r == waferOf g && hs.any (fun a => hs.any (fun h => s.pathVisits g h 8192 (homeRouter a) false))

/-- What the death of a tile costs (10 R253): its domains are LOST; what can be read of its weight is returned, else its region's domains are
LOST too; an unreadable router loses the domains of every region whose routes pass it. -/
def State.recover (s : State) (g : Nat) (readable routerReadable : Bool) : State :=
  let name := s.nameOf g
  let r := s.regionOf g
  let s := s.loseDomains (fun c e => e.root == name && c / 3072 == waferOf g)
  let s := if readable then s.salvage g else s.loseDomains (fun c _ => c / 3072 * 256 + (s.cluster c).region == r)
  if routerReadable then s else s.loseDomains (fun c _ => s.routesPass (c / 3072 * 256 + (s.cluster c).region) g)

/-- The death of a tile: its weight is accounted for, and the coordinate is dead. -/
def State.tileDies (s : State) (g : Nat) (readable routerReadable : Bool) : State := (s.recover g readable routerReadable).quarantine g

/-- TILE_QUARANTINE: the island takes a tile out of service, all of it still readable. -/
def execTileQuarantine (s : State) : Host.Outcome State Fault Refusal := .next (s.tileDies s.focus.tile true true)

/-- TILE_SILENT: dead, and nothing of it can be read. -/
def execTileSilent (s : State) : Host.Outcome State Fault Refusal :=
  .next ((s.reportTile s.focus.tile 0x24 0 0).tileDies s.focus.tile false false)

/-- ROUTER_PARITY_ERROR: the router stops, its four links go down, and the tile is treated as dead. -/
def execRouterParityError (s : State) : Host.Outcome State Fault Refusal :=
  let g := s.focus.tile
  let down (s : State) (p : Nat) : State :=
    let s := s.modTile g (fun t => t.modRouter (fun r => { r with linkDown := r.linkDown.put p true }))
    match neighbour g p with
    | some n => s.modTile n (fun t => t.modRouter (fun r => { r with linkDown := r.linkDown.put (opposite p) true }))
    | none => s
  let s := s.modTile g (fun t => t.modRouter (fun r => { r with stoppedRouter := true }))
  .next (((List.range 4).foldl down s).reportTile g 0x22 0 0 |>.tileDies g true false)

/-- SCRUB_UNCORRECTABLE: a scratchpad granule is marked poisoned and reported. -/
def execScrubUncorrectable (granule : Nat) (s : State) : Host.Outcome State Fault Refusal :=
  let g := s.focus.tile
  .next (if 16384 ≤ granule then s
    else (s.modTile g (fun t => t.modCtl (fun c => { c with poison := c.poison.put granule true }))).reportTile g 0x21 0
      (s.prefixOf g + 8 * granule))

/-! The actions (08 R209, 16 R346) -/

/-- The class of a cause replaces the action (16 R339). -/
def forcedAction (cause n : Nat) : Nat :=
  match causeClass cause with
  | .context => 2
  | .task => 1
  | _ => n

/-- The action on the faulting thread of a tile. The island is notified whatever it is. -/
def State.faultAction (s : State) (g h n : Nat) : State :=
  let s := s.notice (islandOf g) (0x48 + n) (s.nameOf g)
  match n with
  | 1 => (s.killTask g h).freeTile g h
  | 2 => s.beginTerminate (s.regionOf g)
  | 3 => (s.retryTask g h).freeTile g h
  | 4 => (s.killTask g h).tileDies g true true
  | _ => s

/-! The island's resolution (16 R350, 17 R359) -/

/-- ISLAND_STOP of the thread in focus. While the island has stopped a tile, its landing thread is held too (01 R6, 15 R335). -/
def execIslandStop (s : State) : Host.Outcome State Fault Refusal :=
  let g := s.focus.tile
  let s := s.modTile g (fun t => t.modCtl (fun c => { c with landStop := true }))
  .next (if 1 < s.focus.thread then s else s.askStop g s.focus.thread (fun x => { x with island := true }))

/-- The island's stop of a tile is over for the landing thread with the resume of t2, or once it holds neither t0 nor t1. -/
def State.landResume (s : State) (g h : Nat) : State :=
  if h ≠ 2 ∧ ((s.thread g 0).run.stop.island ∨ (s.thread g 1).run.stop.island) then s
  else s.modTile g (fun t => t.modCtl (fun c => { c with landStop := false }))

def execIslandResume (s : State) : Host.Outcome State Fault Refusal :=
  let g := s.focus.tile
  .next (((s.resumeThread g s.focus.thread).unstopTile g).landResume g s.focus.thread)

/-- The task of a stopped thread ends as by action 1. -/
def execIslandTerminateTask (s : State) : Host.Outcome State Fault Refusal :=
  let g := s.focus.tile
  let h := s.focus.thread
  .next (if h ≤ 1 ∧ s.me.run.ts = .stopped then (s.killTask g h).freeTile g h else s)

/-- Writing 1 to FAULT_REPt.V (16 R341). -/
def State.rearm (s : State) : State :=
  let h := s.focus.thread
  s.modMyTile (fun t => t.modCtl (fun c => { c with reps := c.reps.modify h {} (fun r => { r with v := false }) }))

def execFaultReportRearm (s : State) : Host.Outcome State Fault Refusal := .next (s.rearm)

/-! Reset of a tile (01 R27) -/

/-- What a tile reset leaves of the hardware's own marks. -/
def TileCtl.wiped (c : TileCtl) : TileCtl :=
  { gen := c.gen, quarantined := c.quarantined, dead := c.dead, hole := c.hole, clkLost := c.clkLost, clkSrc := c.clkSrc,
    clkStop := c.clkStop, droopFrom := c.droopFrom, droopLeft := c.droopLeft, lostU := c.lostU, proofAt := c.proofAt, retiredAt := c.retiredAt }

def State.resetTile (s : State) (g : Nat) : State :=
  let s := [0, 1].foldl (fun s h => (s.endStall g h).dropThreadAt g h) s
  -- NAME_RET reads 0 until the islands load it again
  let ret : Tab Word64 := if (s.wafer (waferOf g)).nameRet.isEmpty then [] else (List.range 64).map (fun n => (n, 0))
  let s := s.modTile g (fun t => { rt := { bufs := t.rt.bufs, nameRet := ret, linkUnused := t.rt.linkUnused, turn := t.rt.turn, streak := t.rt.streak,
                                           closed := t.rt.closed, stoppedRouter := t.rt.stoppedRouter }, c := t.c.wiped,
                                     e := { nextId := t.e.nextId, copySerial := t.e.copySerial, mqSerial := t.e.mqSerial } })
  let s := s.modHome g (fun h => { inbox := h.inbox, outbox := h.outbox, lost := h.lost })
  { s with mem := s.mem.wipe (padKey g 0) 131072 }

def execTileReset (s : State) : Host.Outcome State Fault Refusal := .next (s.resetTile s.focus.tile)

/-! Repair (16 R353, R354) -/

/-- The listed tiles of logical rows r to 11 of a tile's cluster. -/
def State.movedTiles (s : State) (g : Nat) : List Nat :=
  (s.tiles.map (fun (p : Nat × Tile) => p.1)).filter (fun m => clusterOf m == clusterOf g && decide (yOf g ≤ yOf m))

/-- The next generation (07 R166): 255 is followed by 1. -/
def nextGen (n : Nat) : Nat := if n = 255 then 1 else n + 1

/-- The successor of a failed coordinate: a tile at reset with the next generation and the failed tile's scratchpad and poison marks, or
the region's image where the scratchpad cannot be read. Its links are up again (07 R165). What the old tile sent is still delivered (R355),
and what it had not yet performed is refused since its quarantine. -/
def State.succeed (s : State) (g : Nat) (readable : Bool) : State :=
  let gen := nextGen (s.genOf g)
  let poison := (s.tile g).c.poison
  let img := (s.region (s.regionOf g)).image.filter (fun c => padOf c.1 == g)
  let s := s.modTile g (fun t =>
    { rt := { bufs := if t.rt.stoppedRouter then [] else t.rt.bufs, ovr := t.rt.ovr, linkUnused := t.rt.linkUnused },
      -- answers under way to the old name's accesses find no access of the new one
      e := { nextId := t.e.nextId, copySerial := t.e.copySerial, mqSerial := t.e.mqSerial },
      c := { gen := some gen, clkLost := t.c.clkLost, clkSrc := t.c.clkSrc, clkStop := t.c.clkStop, proofAt := t.c.proofAt, retiredAt := s.now,
             poison := if readable then poison else [] } })
  let s := (s.modHome g (fun h => { outbox := h.outbox, lost := h.lost })).linksUp g
  if readable then s
  else { s with mem := img.foldl (fun m c => m.write c.1 c.2) (s.mem.wipe (padKey g 0) 131072) }

/-- No task of a failed coordinate survives (R354). -/
def State.endTasks (s : State) (g : Nat) : State := (s.killTask g 0).killTask g 1

/-- TILE_REPAIR of the dead coordinate in focus. The threads of the rows that move stop and drain first; with the endpaper row in use
the coordinate becomes a hole instead; the overrides around it are the island's ROUTE_OVR_WRITE steps
(DESIGN CHOICE, assumption 78). -/
def execTileRepair (readable : Bool) (s : State) : Host.Outcome State Fault Refusal :=
  let g := s.focus.tile
  let c := clusterOf g
  let ts := s.movedTiles g
  .next (if !(s.tile g).c.dead || (s.tile g).c.hole then s
    else if (s.cluster c).spareRow.isSome then
      (((s.recover g readable true).endTasks g).modTile g (fun t => t.modCtl (fun k => { k with hole := true }))).loadRetired
    else
      let others := ts.filter (· != g)
      let quiet (m : Nat) : Bool := (s.thread m 0).run.ts.atRest && (s.thread m 1).run.ts.atRest && s.tileQuiet m
      if !others.all quiet then
        others.foldl (fun s m => (s.askStop m 0 (fun x => { x with tileStop := true })).askStop m 1 (fun x => { x with tileStop := true })) s
      else
        let s := (s.recover g readable true).endTasks g
        let s := (s.succeed g readable).modCluster c (fun k => { k with spareRow := some (yOf g % 12) })
        let s := s.loadRetired
        others.foldl (fun s m =>
          (s.endTileStop m 0).endTileStop m 1) s)

end Sys2Proof.Machine
end

