-- ==== Sys2Proof/Machine/Recipe.lean ====
section
/-!
DEFINITION. The policy engine (08 R199 to R218): the recipe interpreter, decisions, fallbacks, the age override and the commit of a
recipe. A decision is one step; it sees the state it starts from, and its effects take place together.
-/
namespace Sys2Proof.Machine

/-! The image and its validation (R201, R202, R208) -/

def Cluster.imgWord (c : Cluster) (slot w : Nat) : Nat := c.img.look (256 * slot + w) 0
/-- Entry offset: DISPATCH 0, PREEMPT 1, FAULT 2, TIMER 3. -/
def Cluster.entry (c : Cluster) (slot e : Nat) : Nat := c.ent.look slot 0 / 256 ^ e % 256

def rOp (w : Nat) : Nat := w / 2048 % 32
def rA (w : Nat) : Nat := w / 128 % 16
def rB (w : Nat) : Nat := w / 8 % 16
def rC (w : Nat) : Nat := w % 8

/-- Reserved fields and field ranges of one word. -/
def wordOk (w : Nat) : Bool :=
  match rOp w with
  | 0 | 24 => decide (w % 2048 = 0)
  | 1 | 13 | 16 | 17 => true
  | 2 | 3 | 4 | 5 | 6 | 9 | 10 | 11 | 12 | 27 => decide (w % 8 = 0)
  | 7 | 8 => decide (w % 4 = 0)
  | 14 => decide (w % 128 ≠ 0)
  | 15 => decide (w % 2048 / 256 = 0) && decide (w % 256 ≠ 0)
  | 18 | 19 | 20 => decide (w / 8 % 16 = 0)
  | 21 | 22 | 25 => decide (w % 128 = 0)
  | 23 => decide (w / 2 % 4 = 0)
  | 26 => decide (w % 2048 / 8 = 0) && decide (w % 8 ≤ 4)
  | _ => false

/-- Where a branch at offset `i` goes. -/
def branchTo (i w : Nat) : Option Nat :=
  match rOp w with
  | 14 => some (i + w % 128)
  | 15 => some (i + w % 256)
  | _ => none

/-- The nearest `qloop` before an offset. -/
def lastLoop (img : Nat → Nat) (i : Nat) : Option Nat := ((List.range i).reverse).find? (fun j => rOp (img j) == 21)

/-- Is offset `p` inside a loop whose `qloop` is at `a`: after it, up to its `qnext`? -/
def insideFrom (img : Nat → Nat) (a p : Nat) : Bool :=
  match ((List.range 256).drop (a + 1)).find? (fun j => rOp (img j) == 21 || rOp (img j) == 22) with
  | some b => rOp (img b) == 22 && decide (a < p) && decide (p ≤ b)
  | none => false

/-- The loop that an offset lies in after its `qloop`. -/
def loopOf (img : Nat → Nat) (p : Nat) : Option Nat :=
  (List.range p).find? (fun a => rOp (img a) == 21 && insideFrom img a p)

/-- Does an offset lie strictly inside a loop, between its `qloop` and its `qnext`? -/
def inLoop (img : Nat → Nat) (p : Nat) : Bool := (loopOf img p).isSome && rOp (img p) != 22

def imageValid (img : Nat → Nat) (ent : Nat → Nat) : Bool :=
  (List.range 256).all (fun i =>
    let w := img i
    wordOk w &&
    (match branchTo i w with
      | some t => decide (t ≤ 255) &&
        (match loopOf img t with
          | some a => decide (a = i) || loopOf img i == some a
          | none => true)
      | none => true) &&
    (rOp w != 22 || (match lastLoop img i with | some a => rA (img a) == rA w | none => false))) &&
  (List.range 4).all (fun e => !inLoop img (ent e))

/-! Attributes (R203, R205) -/

/-- Units of 1.024 µs, saturating. -/
def coarse (ns : Nat) : Nat := min (ns / 1024) 4294967295

def budgetIndex (c : Cluster) (region : Nat) : Option Nat :=
  (List.range 16).find? (fun n => let b := c.budget.look n 0; b / 9223372036854775808 % 2 = 1 ∧ b / 4294967296 % 256 = region)

def queueAttr (s : State) (c q attr : Nat) : Nat :=
  let k := s.cluster c
  if 16 ≤ q then 0
  else match attr, k.queue q with
    | 0, l => l.length
    | _, [] => 0
    | 1, r :: _ => coarse (s.now - r.tr.enqueued)
    | 2, r :: _ => recPrio r.tr.dw2
    | 3, r :: _ => recRegion r.tr.dw2
    | 4, r :: _ => bit (recNarrow r.tr.dw2) 0
    | 5, r :: _ => match budgetIndex k (recRegion r.tr.dw2) with
      | some n => k.budget.look n 0 % 4294967296
      | none => 4294967295
    | 6, r :: _ => r.tr.target.getD 0xFFFF
    | _, _ => 0

/-- STATE of a thread. A claimed or LEFT member of a gathering is not IDLE to a recipe (09 R232); a LEFT one, whose own state is IDLE, reads 1
(DESIGN CHOICE, assumption 136). Nor is a thread of a quarantined, dead
or absent tile (R212). -/
def threadState (s : State) (g h : Nat) : Nat :=
  let r := (s.thread g h).run
  let k := (s.tile g).c
  if r.chosen then 5
  else match r.ts with
    | .idle => if k.quarantined || k.dead || k.hole then 4 else if r.gather.role == .solo then 0 else 1
    | .running => 1
    | .parked => 2
    | .sleeping => 3
    | .stopped => 4

/-- Is a thread IDLE to the policy engine? A claimed member of a gathering never is (09 R232). -/
def policyIdle (s : State) (g h : Nat) : Bool := (s.thread g h).run.ts == .idle && (s.thread g h).run.gather.role == .solo

def threadAttr (s0 st : State) (c t attr : Nat) : Nat :=
  let g := tileIn c (t / 2)
  let h := t % 2
  let task := s0.taskAt g h
  let idle := policyIdle s0 g h
  if 384 ≤ t then 0
  else match attr with
    | 0 => threadState st g h
    | 1 => h
    | 2 => if idle then 4294967295 else (match task with | some i => recRegion i.tr.dw2 | none => s0.regionIdOf g)
    | 3 => (match task with | some i => coarse (s0.now - i.begun) | none => 0)
    | 4 => t / 2
    | 5 => if idle then 0 else (match task with | some i => recPrio i.tr.dw2 | none => 0)
    | _ => 0

def eventAttr (s0 st : State) (c : Nat) (e : PEvent) (attr : Nat) : Nat :=
  let fault := e.kind == 5
  match attr with
  | 0 => e.kind
  | 1 => if fault then e.cause else 0
  | 2 => if fault then e.thread / 2 else 0
  | 3 => if fault then (match s0.taskAt (tileIn c (e.thread / 2)) (e.thread % 2) with
      | some i => recRegion i.tr.dw2
      | none => (s0.cluster c).region) else 0
  | 4 => s0.now / 1024 % 4294967296
  | 5 => ((clusterThreads c).filter (fun x => st.takeable x.1 x.2)).length
  | 6 => if e.kind = 1 ∨ e.kind = 3 ∨ e.kind = 5 then e.thread else 0
  | _ => if e.kind = 0 ∨ e.kind = 4 then e.queue else 0

/-! Running a recipe (R201 to R207) -/

/-- A record chosen by a decision: its queue, its place in it, and the thread. -/
structure Pick where
  queue : Nat
  rec_ : QRec
  place : Nat
  tile : Nat
  thread : Nat
  deriving DecidableEq, Repr

/-- A decision under way. `view` is the snapshot in which the threads chosen so far are marked. -/
structure Dec where
  k : Tab Nat := []
  pc : Nat := 0
  loop : Nat := 0
  picks : List Pick := []
  evicts : List Nat := []
  charges : List (Nat × Nat) := []
  scratch : Tab Nat := []
  act : Option Nat := none
  view : State := {}
  deriving DecidableEq, Repr

inductive DecEnd where
  | ended (d : Dec)
  | passed
  | overrun
  deriving DecidableEq, Repr

def Dec.get (d : Dec) (r : Nat) : Nat := d.k.look r 0
def Dec.set (d : Dec) (r v : Nat) : Dec := { d with k := d.k.put r (v % 4294967296) }
def Dec.next (d : Dec) : Dec := { d with pc := d.pc + 1 }

/-- A thread, with the members a resume record needs, is CHOSEN. -/
def State.markChosen (s : State) (c g h : Nat) (t : TaskRec) : State :=
  let mark (s : State) (g h : Nat) : State := s.modThread g h (fun t => t.modRun (fun r => { r with chosen := true }))
  (s.resumeTiles c t).foldl (fun s m => mark s m 0) (mark s g h)

/-- `pick` over the first 16 on-chip records of a queue (R206). -/
def pickFrom (c q n : Nat) (nw : Bool) : List (QRec × Nat) → Dec × Nat → Dec × Nat
  | [], a => a
  | (r, i) :: rest, (d, count) =>
    if n ≤ count then (d, count)
    else if d.picks.any (fun p => p.queue == q && p.place == i) then pickFrom c q n nw rest (d, count)
    else match d.view.choose c r.tr nw with
      | some (g, h) => pickFrom c q n nw rest
          ({ d with picks := d.picks ++ [⟨q, r, i, g, h⟩], view := d.view.markChosen c g h r.tr }, count + 1)
      | none => pickFrom c q n nw rest (d, count)

def doPick (s0 : State) (c q n : Nat) (nw : Bool) (d : Dec) : Dec × Nat :=
  if 16 ≤ q then (d, 0)
  else
    let l := (((s0.cluster c).queue q).filter (fun r => r.spill.isNone)).zipIdx
    pickFrom c q (min n 16) nw (l.take 16) (d, 0)

/-- One recipe instruction of the decision `ev` on the snapshot `s0`; `none` in the second place goes on. -/
def recipeStep (s0 : State) (c : Nat) (ev : PEvent) (w : Nat) (d : Dec) : Dec × Option Bool :=
  let a := rA w
  let b := rB w
  let ka := d.get a
  let kb := d.get b
  let go (d : Dec) : Dec × Option Bool := (d.next, none)
  match rOp w with
  | 0 => (d, some true)
  | 1 => go (d.set a (w % 128))
  | 2 => go (d.set a kb)
  | 3 => go (d.set a (ka + kb))
  | 4 => go (d.set a (ka + 4294967296 - kb))
  | 5 => go (d.set a (ka &&& kb))
  | 6 => go (d.set a (ka ||| kb))
  | 7 => go (d.set a (ka * 2 ^ (w / 4 % 32)))
  | 8 => go (d.set a (ka / 2 ^ (w / 4 % 32)))
  | 9 => go (d.set a (min ka kb))
  | 10 => go (d.set a (max ka kb))
  | 11 => go (d.set a (bit (decide (ka < kb)) 0))
  | 12 => go (d.set a (bit (decide (ka = kb)) 0))
  | 13 => go (if d.get (rC w) ≠ 0 then d.set a kb else d)
  | 14 => if ka = 0 then ({ d with pc := d.pc + w % 128 }, none) else go d
  | 15 => ({ d with pc := d.pc + w % 256 }, none)
  | 16 => go (d.set a (queueAttr s0 c kb (rC w)))
  | 17 => go (d.set a (threadAttr s0 d.view c kb (rC w)))
  | 18 => go (d.set a (eventAttr s0 d.view c ev (rC w)))
  | 19 => go (d.set a ((s0.cluster c).scratch.look (rC w) 0))
  | 20 => go { d with scratch := d.scratch.put (rC w) ka }
  | 21 => go { d.set a 0 with loop := d.pc + 1 }
  | 22 =>
    let v := (ka + 1) % 4294967296
    if v < 16 then ({ d.set a v with pc := d.loop }, none) else go (d.set a v)
  | 23 =>
    let (d, n) := doPick s0 c ka kb (w % 2 == 1) d
    go (d.set b n)
  | 24 => (d, some false)
  | 25 => go { d with evicts := d.evicts ++ [ka] }
  | 26 => go { d with act := some (w % 8) }
  | 27 => go { d with charges := d.charges ++ [(ka, kb)] }
  | _ => (d, some true)

/-- At most 96 steps; the 97th overruns (R209). Past offset 255 the decision ends. -/
def runRecipe (s0 : State) (c : Nat) (ev : PEvent) (slot : Nat) : Nat → Dec → DecEnd
  | 0, d => if 255 < d.pc then .ended d else .overrun
  | n + 1, d =>
    if 255 < d.pc then .ended d
    else match recipeStep s0 c ev ((s0.cluster c).imgWord slot d.pc) d with
      | (d', some true) => .ended d'
      | (_, some false) => .passed
      | (d', none) => runRecipe s0 c ev slot n d'

/-- Entry of an event's kind (R200). -/
def entryOf (kind : Nat) : Nat := if kind ≤ 2 then 0 else if kind ≤ 4 then 1 else if kind = 5 then 2 else 3

/-- What a recipe decides about an event. -/
def decideBy (s : State) (c : Nat) (ev : PEvent) : DecEnd :=
  let k := s.cluster c
  runRecipe s c ev (k.recipeAct % 2) 96 { pc := k.entry (k.recipeAct % 2) (entryOf ev.kind), view := s }

/-! Effects (R199, R206, R207) -/

/-- Records leave a queue for their threads; the heads that follow are looked at. -/
def State.startPicks (s : State) (c : Nat) (ps : List Pick) : State :=
  let leave (s : State) (p : Pick) : State := s.modCluster c (fun k => k.setQueue p.queue ((k.queue p.queue).eraseP (fun x => x.spill.isNone && x.tr == p.rec_.tr)))
  let s := ps.foldl leave s
  let s := ps.foldl (fun s p => s.startRec p.tile p.thread p.rec_.tr) s
  let s := (ps.map (·.queue)).eraseDups.foldl (fun s q => s.settle c q) s
  if ps.isEmpty then s else s.checkHeads c

/-- The dispatches of a decision; one that dispatched raises an event (R200). -/
def State.dispatch (s : State) (c : Nat) (ps : List Pick) : State :=
  if ps.isEmpty then s else (s.startPicks c ps).raise c ⟨2, 0, 0, 0, 0⟩

/-- `charge`: the BUDGET entry of the region of a thread's task. -/
def State.charge (s0 s : State) (c t n : Nat) : State :=
  let g := tileIn c (t / 2)
  if 384 ≤ t ∨ policyIdle s0 g (t % 2) then s
  else match s0.taskAt g (t % 2) with
    | none => s
    | some i => match budgetIndex (s.cluster c) (recRegion i.tr.dw2) with
      | none => s
      | some e => s.modCluster c (fun k =>
          let b := k.budget.look e 0
          { k with budget := k.budget.put e (b - min (b % 4294967296) n) })

/-- The buffered effects of a decision that ends. They take effect together; where one decision both picks a thread and evicts it, the task just
started is the one that is evicted (DESIGN CHOICE, assumption 99). -/
def applyDec (s0 : State) (c : Nat) (d : Dec) : State :=
  let s := s0.dispatch c d.picks
  let s := d.charges.foldl (fun s x => State.charge s0 s c x.1 x.2) s
  let s := d.scratch.foldl (fun s x => s.modCluster c (fun k => { k with scratch := k.scratch.put x.1 x.2 })) s
  d.evicts.foldl (fun s t => if t < 384 then s.evict (tileIn c (t / 2)) (t % 2) else s) s

/-! Fallbacks (R209) -/

/-- Queue a goes before queue b in the DISPATCH fallback: head priority, exact age, number. -/
def queueBefore (s : State) (c a b : Nat) : Bool :=
  match (s.cluster c).queue a, (s.cluster c).queue b with
  | x :: _, y :: _ =>
    let px := recPrio x.tr.dw2
    let py := recPrio y.tr.dw2
    decide (py < px) || (px == py && (decide (x.tr.enqueued < y.tr.enqueued) || (x.tr.enqueued == y.tr.enqueued && decide (a < b))))
  | _, _ => false

def fallbackDispatch (s : State) (c : Nat) : State :=
  let qs := (List.range 16).filter (fun q => !((s.cluster c).queue q).isEmpty)
  let d := (sortBy (queueBefore s c) qs).foldl (fun d q => (doPick s c q 16 false d).1) { view := s }
  s.dispatch c d.picks

/-- The FAULT action on the thread of an event, unless the thread has left STOPPED meanwhile. A thread without a task, whose earlier copy has
trapped (16 R346), is IDLE, and the fault holds its tile. -/
def faultWith (s : State) (c : Nat) (ev : PEvent) (n : Nat) : State :=
  let g := tileIn c (ev.thread / 2)
  let h := ev.thread % 2
  let ts := (s.thread g h).run.ts
  if ts == .stopped || (ts == .idle && (s.tile g).c.stopped) || causeClass ev.cause == .context then s.faultAction g h (forcedAction ev.cause n) else s

def fallback (s : State) (c : Nat) (ev : PEvent) : State :=
  if ev.kind ≤ 2 then fallbackDispatch s c else if ev.kind = 5 then faultWith s c ev 0 else s

/-! Decisions -/

/-- The commit's switch that is due at a cluster (R217). -/
def State.switchDue (s : State) (c : Nat) : State :=
  match (s.cluster c).prepared with
  | some (slot, t) =>
    if s.now < t then s
    else if (s.cluster c).goAhead then
      (s.modCluster c (fun k => { k with recipeAct := slot, recipeDis := false, prepared := none, prepAck := false })).raise c ⟨2, 0, 0, 0, 0⟩
    else s.modCluster c (fun k => { k with prepared := none, prepAck := false })
  | none =>
    -- an invalid slot's PEND ends with the commit
    if (s.cluster c).prepAck ∧ (s.region (c / 3072 * 256 + (s.cluster c).region)).commitT ≤ s.now then s.modCluster c (fun k => { k with prepAck := false })
    else s

/-- The first pending event in the order of service (R200). -/
def firstEvent (l : List PEvent) : Option PEvent :=
  match l.find? (fun e => e.kind == 5) with
  | some e => some e
  | none => match l.find? (fun e => e.kind == 3 || e.kind == 4) with
    | some e => some e
    | none => match l.find? (fun e => decide (e.kind ≤ 2)) with
      | some e => some e
      | none => l.head?

/-- Does the policy engine of the cluster serve the event? While a context drains only a fault that ends it is decided; while one is
unloaded or ends, nothing is. -/
def State.serves (s : State) (c : Nat) (e : PEvent) : Bool :=
  let st := (s.region (c / 3072 * 256 + (s.cluster c).region)).ten
  st == ctxFree || st == ctxRunning || (st == ctxDraining && e.kind == 5 && e.cls == 2)

/-- The event that the engine serves next, if its entry is `entry`. -/
def State.nextEvent (s : State) (c entry : Nat) : Option PEvent :=
  match firstEvent (s.cluster c).events with
  | some e => if entryOf e.kind = entry ∧ s.serves c e then some e else none
  | none => none

def State.dropEvent (s : State) (c : Nat) (e : PEvent) : State := s.modCluster c (fun k => { k with events := k.events.erase e })

/-- A decision that does not overrun. -/
def decision (s : State) (c entry : Nat) : State :=
  let s1 := s.switchDue c
  match s1.nextEvent c entry with
  | none => s1
  | some ev =>
    let s2 := s1.dropEvent c ev
    if (s2.cluster c).recipeDis then fallback s2 c ev
    else match decideBy s2 c ev with
      | .ended d =>
        let s3 := applyDec s2 c d
        if ev.kind = 5 then faultWith s3 c ev (d.act.getD 0) else s3
      | .passed => if ev.kind = 5 then faultWith s2 c ev 0 else s2
      | .overrun => s1

def execDispatchDecision (cluster : Nat) (s : State) : Host.Outcome State Fault Refusal := .next (decision s cluster 0)
def execPreemptDecision (cluster : Nat) (s : State) : Host.Outcome State Fault Refusal := .next (decision s cluster 1)
def execFaultDecision (cluster : Nat) (s : State) : Host.Outcome State Fault Refusal := .next (decision s cluster 2)
def execTimerDecision (cluster : Nat) (s : State) : Host.Outcome State Fault Refusal := .next (decision s cluster 3)

/-- An overrun is counted; sixteen within 1 ms disable the recipe (R209, R210). -/
def State.countOverrun (s : State) (c : Nat) : State :=
  let ts := ((s.cluster c).overrunTimes ++ [s.now])
  let ts := ts.drop (ts.length - 16)
  let s := s.modCluster c (fun k => { k with overruns := min (k.overruns + 1) 4294967295, overrunTimes := ts })
  if ts.length = 16 ∧ s.now - ts.headD 0 ≤ 1000000 then
    (s.modCluster c (fun k => { k with recipeDis := true })).notice (islandOfCluster c) 0x65 c
  else s

/-- DECISION_OVERRUN: the decision on the event that is due would take a 97th step. -/
def execDecisionOverrun (cluster : Nat) (s : State) : Host.Outcome State Fault Refusal :=
  let c := cluster
  let s1 := s.switchDue c
  .next (match firstEvent (s1.cluster c).events with
    | none => s1
    | some ev =>
      if !s1.serves c ev || (s1.cluster c).recipeDis then s1
      else
        let s2 := s1.dropEvent c ev
        match decideBy s2 c ev with
        | .overrun => fallback (s2.countOverrun c) c ev
        | _ => s1)

/-! Events of time (R200) -/

/-- TIMER_EVENT: a boundary of 2^K ns has passed since the last one. -/
def execTimerEvent (cluster : Nat) (s : State) : Host.Outcome State Fault Refusal :=
  let k := s.cluster cluster
  let b := s.now / 2 ^ k.timerCfg * 2 ^ k.timerCfg
  .next (if k.timerCfg = 0 ∨ b ≤ k.timerLast then s
    else (s.modCluster cluster (fun k => { k with timerLast := b })).raise cluster ⟨6, 0, 0, 0, 0⟩)

/-- SLICE_END_EVENT: the running task in focus has used up another TASK_SLICE. -/
def execSliceEndEvent (s : State) : Host.Outcome State Fault Refusal :=
  let g := s.focus.tile
  let h := s.focus.thread
  let c := clusterOf g
  let n := (s.cluster c).taskSlice
  .next (match s.me.run.task with
    | none => s
    | some t =>
      let k := (s.now - t.begun) / n
      if n = 0 ∨ 1 < h ∨ k ≤ t.slices ∨ s.me.run.ts.atRest then s
      else (s.modMe (fun x => x.modRun (fun r => { r with task := some { t with slices := k } }))).raise c ⟨3, threadIndex g h, 0, 0, 0⟩)

/-! The age override (R211) -/

def Cluster.ageNs (c : Cluster) : Nat := c.ageLimit * 1024

/-- The threads that fit a record at all. -/
def State.fitThreads (s : State) (c : Nat) (t : TaskRec) : List (Nat × Nat) :=
  match t.resume with
  | none => (clusterThreads c).filter (fun x => fits c t true x.1 x.2)
  | some k => match (s.region (c / 3072 * 256 + (s.cluster c).region)).swaps.find k with
    | some w => [(w.tile, w.thread)]
    | none => []

/-- The running task that the override evicts for a record: lowest priority, then youngest. -/
def State.victim (s : State) (c : Nat) (t : TaskRec) : Option (Nat × Nat) :=
  -- the thread that runs the task of a member is its leader's (09 R232)
  let runner (x : Nat × Nat) : Run := (s.thread (if x.2 = 0 then s.leaderOf x.1 else x.1) x.2).run
  let cand := (s.fitThreads c t).filter (fun x =>
    !(runner x).ts.atRest && !policyIdle s x.1 x.2 && (s.thread x.1 x.2).run.ts != .stopped && !s.withheld x.1 && (s.taskAt x.1 x.2).isSome)
  let key (x : Nat × Nat) : Nat × Nat := match s.taskAt x.1 x.2 with | some i => (recPrio i.tr.dw2, i.begun) | none => (0, 0)
  if cand.any (fun x => (runner x).stop.evict) then none
  else (sortBy (fun x y => decide ((key x).1 < (key y).1) || ((key x).1 == (key y).1 && decide ((key y).2 < (key x).2))) cand).head?

/-- What the override does for one record of a queue. -/
def overrideOne (c q : Nat) (s : State) (r : QRec) : State :=
  let lim := (s.cluster c).ageNs
  let due := r.tr.enqueued + lim
  if s.now < due then s
  else match s.choose c r.tr true with
    | some (g, h) =>
      (s.startPicks c [⟨q, r, 0, g, h⟩]).modCluster c (fun k => { k with ageOvr := min (k.ageOvr + 1) 65535 })
    | none =>
      if s.now < max due (r.ripe - 1) + lim then s
      else match s.victim c r.tr with
        | some (g, h) => s.evict g h
        | none => s

/-- AGE_OVERRIDE: one pass over the first 16 on-chip records of every queue. -/
def execAgeOverride (cluster : Nat) (s : State) : Host.Outcome State Fault Refusal :=
  .next (if !s.serves cluster ⟨0, 0, 0, 0, 0⟩ then s
    else (List.range 16).foldl (fun s q =>
      ((((s.cluster cluster).queue q).filter (fun r => r.spill.isNone)).take 16).foldl (overrideOne cluster q) s) s)

/-! Commit (R215 to R218) -/

/-- RECIPE_COMMIT: a write of the register of a region. One whose REGION field names another region is ignored (20 R408). -/
def State.recipeCommit (s : State) (region value : Nat) : State :=
  let q := s.region region
  if q.commitPend ∨ value % 256 ≠ regId region then s
    else
      let t := (s.now + 4096 + 1023) / 1024 * 1024
      let s := s.modRegion region (fun q => { q with commitPend := true, commitFail := false, commitSlot := value / 256 % 2,
                                                     commitRegion := value % 256, commitT := t })
      q.clusters.foldl (fun s c => s.modCluster c (fun k => { k with prepared := none, prepAck := false, goAhead := false })) s

def execRecipeCommit (region value : Nat) (s : State) : Host.Outcome State Fault Refusal := .next (s.recipeCommit region value)

/-- RECIPE_PREPARE: a cluster answers the prepare of its region. `prepAck` without `prepared` is the answer invalid. -/
def execRecipePrepare (cluster : Nat) (s : State) : Host.Outcome State Fault Refusal :=
  let k := s.cluster cluster
  let r := cluster / 3072 * 256 + k.region
  let q := s.region r
  .next (if !q.commitPend || k.prepAck || !q.clusters.contains cluster || decide (q.commitT ≤ s.now) then s
    else if k.recipeAct % 2 != q.commitSlot && imageValid (k.imgWord q.commitSlot) (k.entry q.commitSlot) then
      s.modCluster cluster (fun k => { k with prepAck := true, prepared := some (q.commitSlot, q.commitT) })
    else s.modCluster cluster (fun k => { k with prepAck := true, recipeFail := true }))

/-- RECIPE_GO: every cluster has answered valid 512 ns before T. -/
def execRecipeGo (region : Nat) (s : State) : Host.Outcome State Fault Refusal :=
  let q := s.region region
  .next (if q.commitPend && decide (s.now + 512 ≤ q.commitT) &&
      q.clusters.all (fun c => (s.cluster c).prepAck && (s.cluster c).prepared.isSome) then
      q.clusters.foldl (fun s c => s.modCluster c (fun k => { k with goAhead := true })) s
    else s)

/-- RECIPE_SWITCH: time T at a cluster; the commit of its region is over once every cluster is past it. -/
def execRecipeSwitch (cluster : Nat) (s : State) : Host.Outcome State Fault Refusal :=
  let r := cluster / 3072 * 256 + (s.cluster cluster).region
  let s := s.switchDue cluster
  let q := s.region r
  .next (if q.commitPend && decide (q.commitT ≤ s.now) && q.clusters.contains cluster && q.clusters.all (fun c => !(s.cluster c).prepAck) then
      s.modRegion r (fun x => { x with commitPend := false, commitFail := !(q.clusters.all (fun c => (s.cluster c).goAhead)) })
    else s)

/-- RECIPE_CTL_CLEAR: W1C of FAIL and QSTAT_OVF. -/
def State.clearRecipeCtl (s : State) (cluster value : Nat) : State :=
  s.modCluster cluster (fun k => { k with recipeFail := k.recipeFail && value / 8 % 2 == 0, qstatOvf := k.qstatOvf && value / 4 % 2 == 0 })

def execRecipeCtlClear (cluster value : Nat) (s : State) : Host.Outcome State Fault Refusal := .next (s.clearRecipeCtl cluster value)

end Sys2Proof.Machine
end

