-- ==== Sys2Proof/Machine/Quiesce.lean ====
section
/-!
DEFINITION. Quiescence domains (10 R236 to R253) and hang detection (R254 to R258). Shares, returns and GIVE() are in Leaven.lean.
-/
namespace Sys2Proof.Machine

/-! Borrows and returns at the root (R243, R244, R252) -/

/-- May HOME fall by a grant (R244)? -/
def grantFits (e : DomEntry) : Bool := decide (-(wholeWeight : Int) ≤ e.home - (borrowWeight : Int))

/-- Waiting requests of a domain are granted in arrival order as far as they fit. -/
def State.grantWaiting (s : State) (rt d : Nat) : Nat → State
  | 0 => s
  | n + 1 =>
    let c := clusterOf rt
    let mine (m : Msg) : Bool := m.aux % 64 == d
    match (s.cluster c).borrows.find? mine with
    | none => s
    | some m =>
      if grantFits (s.domain c d) then
        State.grantWaiting ((s.modCluster c (fun k => { k with borrows := k.borrows.eraseP mine })).sendGrant rt d m) rt d n
      else s

/-- A share arrives at the root cluster of a domain. -/
def State.addHome (s : State) (rt d w : Nat) : State :=
  let c := clusterOf rt
  let e := s.domain c d
  if !e.here ∨ e.state = 0 ∨ e.state = 4 then s.notice (islandOf rt) 0x40 d
  else if e.state = 2 then s.domLost rt d
  else if (wholeWeight : Int) < e.home + w then (if e.state = 1 then s.domLost rt d else s.notice (islandOf rt) 0x42 (s.nameOf rt))
  else
    let s := s.modDomain c d (fun e => { e with home := e.home + w })
    let s := s.grantWaiting rt d (s.cluster c).borrows.length
    let e := s.domain c d
    if e.state = 1 ∧ e.home = (wholeWeight : Int) ∧ !(s.cluster c).borrows.any (fun m => m.aux % 64 == d) then
      (s.modDomain c d (fun e => { e with state := 2 })).wakeWatchers rt d 0 (fun _ => true)
    else s

/-- The home that passes a forwarded return on: the source's own tile; for an island, the one that polices the region (R252). -/
def State.forwarder (s : State) (at_ r : Nat) : Nat :=
  if isTileHome at_ then at_ else islandHome (s.policing r (at_ - 134217728))

/-- LEAVEN_RETURN at a home: added at the root, or forwarded there by the source's cluster or by the region's policing island (R252), with OP 0
on that second leg (DESIGN CHOICE, assumption 123: R242 gives OP 1 to a forwarded return, R252 to the leg towards the source). A root that
is dead leaves no place for the weight: its domain is LOST (R253). -/
def execLeavenReturn (at_ : Nat) (s : State) : Host.Outcome State Fault Refusal :=
  .next (match takeMsg (fun m => m.kind == 6) (s.home at_).inbox with
    | none => s
    | some (m, rest) => match m.body with
      | .leavenReturn op d =>
        let s := s.modHome at_ (fun q => { q with inbox := rest })
        let w := if m.lv then shareOf m.lexp else 0
        if op = 0 ∧ isTileHome at_ then s.addHome at_ d w
        else
          let r := homeWafer at_ * 256 + m.region
          let by_ := s.forwarder at_ r
          let e := if isTileHome at_ then s.domain (clusterOf at_) d else s.anyDomain r d
          if e.state = 0 then s.notice (islandAt by_) 0x40 d
          else if s.staleName (homeWafer at_) e.root then (s.loseDomain (nameTile e.root) d).notice (islandAt by_) 0x40 d
          else s.sendHw by_ e.root (nameTile e.root) 15 6 0 m.lv m.lexp m.region d 0 (.leavenReturn 0 d)
      | _ => s)

/-- BORROW_REQUEST at the root cluster. -/
def execBorrowRequest (at_ : Nat) (s : State) : Host.Outcome State Fault Refusal :=
  let isReq (m : Msg) : Bool := match m.body with | .borrow op _ _ => op == 0 | _ => false
  .next (match takeMsg isReq (s.home at_).inbox with
    | none => s
    | some (m, rest) => match m.body with
      | .borrow _ d _ =>
        let s := s.modHome at_ (fun q => { q with inbox := rest })
        let c := clusterOf at_
        let e := s.domain c d
        if !isTileHome at_ ∨ !e.here ∨ e.state = 0 ∨ e.state = 4 then s.sendRefusal at_ d m
        else
          let s := if e.state = 2 then s.domLost at_ d else s
          if grantFits (s.domain c d) ∧ !(s.cluster c).borrows.any (fun x => x.aux % 64 == d) then s.sendGrant at_ d m
          else s.modCluster c (fun k => { k with borrows := k.borrows ++ [m] })
      | _ => s)

/-- Takes the answer to a borrow request of the thread in focus. -/
def borrowAnswer (s : State) (op : Nat) : Option (Msg × List Msg) :=
  takeMsg (fun m => match m.body with | .borrow o _ t => o == op && t == s.focus.thread | _ => false) (s.home s.focus.tile).inbox

/-- Does thread `t` of a tile wait in GIVE() for a domain (R240)? -/
def State.asksFor (s : State) (g t d : Nat) : Bool := (s.thread g t).run.give == .asked && (s.thread g t).r.qwDom == d

/-- Applies `f` to the first element that `p` picks. -/
def modFirst (p : α → Bool) (f : α → α) : List α → List α
  | [] => []
  | x :: l => if p x then f x :: l else x :: modFirst p f l

/-- The answer of thread or engine `t` of tile `g` to a domain's GIVE(): the oldest copy that waits, or the thread that does. -/
def State.answerGive (s : State) (g t d : Nat) (w : GiveWait) (share : Nat) : State :=
  if t = 3 then
    -- the copy engine borrows for the records of a window 8 copy (15 R319)
    let waits (c : CopyEntry) : Bool := c.give == .asked && c.dom == d
    let done (c : CopyEntry) : CopyEntry := { c with give := w, share := c.share + share }
    s.modTile g (fun x => x.modEng (fun e => { e with copies := modFirst waits done e.copies }))
  else if s.asksFor g t d then
    s.modThread g t (fun x => { r := { x.r with weight := x.r.weight + share }, run := { x.run with give := w } })
  else s

/-- Does anything of the tile still wait for the answer? -/
def State.givesTo (s : State) (g t d : Nat) : Bool :=
  if t = 3 then (s.tile g).e.copies.any (fun c => c.give == .asked && c.dom == d) else s.asksFor g t d

/-- BORROW_GRANT: 2^40 units join the held weight, and GIVE() goes on. A thread that no longer waits gives them back. -/
def execBorrowGrant (s : State) : Host.Outcome State Fault Refusal :=
  let g := s.focus.tile
  .next (match borrowAnswer s 1 with
    | none => s
    | some (m, rest) =>
      let s := s.modHome g (fun q => { q with inbox := rest })
      let d := m.aux % 64
      if s.givesTo g s.focus.thread d then s.answerGive g s.focus.thread d .granted (shareOf m.lexp)
      else s.hwReturn g d m.lexp)

/-- BORROW_REFUSAL: GIVE() ends without weight. -/
def execBorrowRefusal (s : State) : Host.Outcome State Fault Refusal :=
  .next (match borrowAnswer s 2 with
    | none => s
    | some (m, rest) =>
      let s := s.modHome s.focus.tile (fun q => { q with inbox := rest })
      s.answerGive s.focus.tile s.focus.thread (m.aux % 64) .refused 0)

/-! Instructions (R245 to R249) -/

/-- The wait for a reply of the island in `qwroot`. -/
def inQwroot : Nat := 4

/-- An allocation request to the policing island; the thread sleeps. -/
def doQwroot (s : State) : State :=
  let g := s.focus.tile
  if s.me.run.phase = inQwroot then s.sleep 6 0 18446744073709551615
  else
    let i := s.policing (s.regionOf g) (islandOf g)
    let n := s.me.run.seq
    let s := s.modMe (fun t => t.modRun (fun r => { r with phase := inQwroot, phaseVal := n }))
    (s.sendFrom g s.focus.thread (s.homeName (islandHome i)) (islandHome i) 15 9 0 false 0 16384 0 .allocate).sleep 6 0 18446744073709551615

def execQwroot (o : CR) (s : State) : Host.Outcome State Fault Refusal := s.run (.qwroot o) doQwroot

/-- Does the thread wait for the reply to its call of number `seq`, in `ecall` (phase 1) or `qwroot`? -/
def Thread.callOpen (t : Thread) (ph seq : Nat) : Bool :=
  (match t.run.wait with | some w => w.kind == 6 | none => false) && t.run.phase == ph && t.run.phaseVal == seq && t.run.answer.isNone

/-- The island answers a call while its caller runs; that of a stopped or evicted caller stays pending (04 R74, 17 R359). -/
def State.callerWaits (s : State) (m : Msg) (ph : Nat) : Bool :=
  let t := s.thread m.srcHome m.sthr
  t.run.ts == .sleeping && t.callOpen ph m.seq

/-- DOMAIN_ALLOCATION_REQUEST: the lowest domain that is FREE in every cluster of the region becomes the sender's. -/
def execDomainAllocationRequest (island : Nat) (s : State) : Host.Outcome State Fault Refusal :=
  let i := islandHome island
  let isReq (m : Msg) : Bool := match m.body with | .allocate => s.callerWaits m inQwroot | _ => false
  .next (match takeMsg isReq (s.home i).inbox with
    | none => s
    | some (m, rest) =>
      let s := s.modHome i (fun q => { q with inbox := rest })
      let g := m.srcHome
      let cs := s.domClusters (s.regionOf g) (clusterOf g)
      let reply (s : State) (v : Nat) : State :=
        s.inject i { dst := m.src, src := s.homeName i, dstHome := g, srcHome := i, vc := 15, kind := 9, lv := false, lexp := 0,
                      len := 1, region := m.region, handler := 0, seq := m.seq, sthr := m.sthr, aux := 16384, body := .callReply v 0 }
      match (List.range 64).find? (fun d => cs.all (fun c => (s.domain c d).state == 0)) with
      -- 0x7F: none (20 R410)
      | none => reply s 127
      | some d => reply (cs.foldl (fun s c => s.modDomain c d (fun _ =>
          { state := 1, here := c == clusterOf g, root := m.src, home := 0 })) s) d)

/-- The reply to a call of the thread in focus: OP 1 for a system call, 4 for a domain (20 R410). -/
def callAnswer (s : State) (op : Nat) : Option (Msg × List Msg) :=
  takeMsg (fun m => match m.body with | .callReply _ _ => m.sthr == s.focus.thread && m.aux / 4096 == op | _ => false)
    (s.home s.focus.tile).inbox

/-- The reply that a stopped thread has received waits in it for its resumption (R359). -/
def Thread.takeReply (t : Thread) (a v : Nat) : Thread := t.modRun (fun r => { r with answer := some a, phaseVal := v })

/-- A reply for thread `h` of tile `g` that has been evicted: its swap slot takes it. One that nothing awaits is discarded. -/
def State.replyToSwapped (s : State) (g h ph seq a v : Nat) : State :=
  let one (w : Swapped) : Swapped := if w.tile = g ∧ w.thread = h ∧ w.saved.callOpen ph seq then { w with saved := w.saved.takeReply a v } else w
  { s with regions := s.regions.map (fun (p : Nat × Region) => (p.1, { p.2 with swaps := p.2.swaps.map (fun (x : Nat × Swapped) => (x.1, one x.2)) })) }

/-- The value that the thread in focus, awake again, has for its call: result and second word. -/
def State.replyKept (s : State) (ph : Nat) : Option (Nat × Nat) :=
  match s.me.run.ts, s.me.run.answer with
  | .sleeping, some a => if s.me.run.phase == ph && (match s.me.run.wait with | some w => w.kind == 6 | none => false) then some (a, s.me.run.phaseVal) else none
  | _, _ => none

/-- `qwroot` completes with the reply: the old weight returns, and the whole of the new domain is held. -/
def finishQwroot (o : CR) (v : Nat) (s : State) : State :=
  if 64 ≤ v then (s.putXn o.rd 9223372036854775808).retire o.s
  else
    let s := s.returnHeld s.focus.tile s.focus.thread
    ((s.modMe (fun t => t.modRegs (fun r => { r with qwV := true, qwDom := v, weight := wholeWeight }))).putXn o.rd v).retire o.s

/-- The thread in focus sleeps in `qwroot` and has its reply. -/
def endQwroot (v : Nat) (s : State) : State :=
  if !s.returnRoom s.focus.tile s.me.r.weight then s
  else s.asleepAt (fun i => match i with
    | .qwroot o => some (finishQwroot o v)
    | _ => none)

/-- DOMAIN_ALLOCATION_REPLY. A stopped thread keeps its reply for its resumption. -/
def execDomainAllocationReply (s : State) : Host.Outcome State Fault Refusal :=
  let g := s.focus.tile
  let h := s.focus.thread
  .next (match s.replyKept inQwroot with
    | some (v, _) => endQwroot v s
    | none => match callAnswer s 4 with
      | none => s
      | some (m, rest) => match m.body with
        | .callReply v _ =>
          let out := s.modHome g (fun q => { q with inbox := rest })
          if !s.me.callOpen inQwroot m.seq then out.replyToSwapped g h inQwroot m.seq v 0
          else
            let kept := out.modMe (·.takeReply v 0)
            if s.me.run.ts = .sleeping then endQwroot v kept else kept
        | _ => s)

/-- The state of a domain at its root cluster, as the thread's cluster finds it. -/
def State.rootState (s : State) (g d : Nat) : Nat × Nat :=
  let e := s.domain (clusterOf g) d
  if e.state = 0 then (0, 0) else ((s.domain (clusterOf (nameTile e.root)) d).state, nameTile e.root)

/-- Registers the thread in focus at the root cluster, once. -/
def State.watchDomain (s : State) (rt key : Nat) : State :=
  let g := s.focus.tile
  let h := s.focus.thread
  s.modCluster (clusterOf rt) (fun k => { k with quietWatch := k.quietWatch.filter (fun w => !(w.2.1 == g && w.2.2 == h)) ++ [(key, g, h)] })

def endQwait (o : CR) (status : Nat) (s : State) : State := (s.putXn o.rd status).retire o.s

/-- Status 0 of `qwait` is a fence with predecessor set r and the full successor set at system scope (R243). -/
def quietQwait (o : CR) (s : State) : State := fenceThen s 2 5 (fun s => endQwait o 0 (s.fenceRefresh s.focus.tile s.focus.thread 15 5))

def doQwait (o : CR) (s : State) : State :=
  let g := s.focus.tile
  let d := s.getXn o.rs1
  let mine := s.me.r.qwV ∧ s.me.r.qwDom = d ∧ 0 < s.me.r.weight
  if 63 < d then endQwait o 2 s
  else if mine ∧ !s.returnRoom g s.me.r.weight then s.waitHere
  else
    let s := if mine then s.returnHeld g s.focus.thread else s
    let (st, rt) := s.rootState g d
    if st = 0 ∨ st = 4 then endQwait o 2 s
    else if st = 2 then quietQwait o s
    else (s.watchDomain rt d).sleep 4 0 d

def execQwait (o : CR) (s : State) : Host.Outcome State Fault Refusal := s.run (.qwait o) (doQwait o)

def execQwheld (o : CR) (s : State) : Host.Outcome State Fault Refusal :=
  s.run (.qwheld o) (fun s => (s.putXn o.rd s.me.r.weight).retire o.s)

def execQwret (o : CR) (s : State) : Host.Outcome State Fault Refusal :=
  s.run (.qwret o) (fun s =>
    if !s.returnRoom s.focus.tile s.me.r.weight then s.waitHere
    else (s.returnHeld s.focus.tile s.focus.thread).retire o.s)

def doQwdone (o : CR) (s : State) : State :=
  let g := s.focus.tile
  let d := s.getXn o.rs1
  if 63 < d then s.illegal
  else
    let (st, rt) := s.rootState g d
    match st with
    | 1 => (s.watchDomain rt (doneKey d)).sleep 4 0 d
    | 2 => (s.freeDomain (s.regionOf g) (clusterOf rt) d).retire o.s
    | 3 => ((s.modDomain (clusterOf rt) d (fun e => { e with state := 4 })).refuseBorrows (clusterOf rt) d).retire o.s
    | _ => s.retire o.s

def execQwdone (o : CR) (s : State) : Host.Outcome State Fault Refusal := s.run (.qwdone o) (doQwdone o)

/-- QUIESCENCE_WAKE: the root cluster's message for the thread in focus. One for a thread that no longer waits is dropped; a QUIET
`qwait` completes once its fence can. -/
def execQuiescenceWake (s : State) : Host.Outcome State Fault Refusal :=
  let g := s.focus.tile
  let mine (m : Msg) : Bool := match m.body with | .quiet _ _ => m.sthr == s.focus.thread | _ => false
  .next (match takeMsg mine (s.home g).inbox with
    | none => s
    | some (m, rest) => match m.body with
      | .quiet d st =>
        let waits := s.me.run.ts == .sleeping && (match s.me.run.wait with | some w => w.kind == 4 && w.value == d | none => false)
        let out := s.modHome g (fun q => { q with inbox := rest })
        if !waits then out
        else if st = 0 ∧ (!s.me.pendDone ∨ fenceWaits s 2 5) then s
        else out.asleepAt (fun i => match i with
          | .qwait o => if st = 0 then some (fun s => quietQwait o s.switchFirst) else if st = 1 then some (endQwait o 1) else none
          | .qwdone o => some (fun s => doQwdone o (s.modMe (fun t => t.modRun (fun r => { r with wait := none }))))
          | _ => none)
      | _ => s)

/-! Island writes and hang detection -/

/-- DOMAIN_STATE_WRITE: the island writes STATE of a domain; the field is at [63:61] of the value (R237, R238). -/
def State.writeDomainState (s : State) (region domain value : Nat) : State :=
  let st := value / 2305843009213693952 % 8
  match (s.regClusters region).find? (fun c => (s.domain c domain).here) with
    | none => s
    | some c =>
      let e := s.domain c domain
      if e.state = 1 ∧ st = 3 then s.domLost (nameTile e.root) domain
      else if e.state = 4 ∧ st = 0 then s.freeDomain region c domain else s

def execDomainStateWrite (region domain value : Nat) (s : State) : Host.Outcome State Fault Refusal := .next (s.writeDomainState region domain value)

/-- Since when the hang condition has held: no entry has been posted since, and no span of time found it broken. -/
def State.hungFor (s : State) (r : Nat) : Nat :=
  let last := ((s.postedWaits r).map (fun w => w.2.2.posted)).foldl max 0
  s.now - max last ((s.region r).hangSince.getD s.now)

/-- The island's hang trap: the region, the time and every posted entry. It stops nothing. It has no cause code of 16 R339, and so a list of its
own (DEDUCED, assumption 110). -/
def State.hangTrap (s : State) (r : Nat) : State :=
  let i := s.policing r (r / 256 * 48)
  let rep : HangRep := ⟨r % 256, s.now, ((s.postedWaits r).map (fun w => waitWords w.1 w.2.1 (some w.2.2))).flatten⟩
  (s.modIsland i (fun k => { k with hangs := k.hangs ++ [rep] })).modRegion r (fun q => { q with hangRaised := true })

/-- HANG_WINDOW_EXPIRY: the condition has held for the window. Waiters on a LOST domain wake, else the trap is raised. A HANG_WINDOW of 0, which
disables the trap (R257), is no window after which a waiter could wake: it disables the wake too (DESIGN CHOICE, assumption 130). -/
def execHangWindowExpiry (region : Nat) (s : State) : Host.Outcome State Fault Refusal :=
  let q := s.region region
  let lost (w : Nat × Nat × WaitEntry) : Bool := w.2.2.kind == 4 && (s.rootState w.1 w.2.2.value).1 == 3
  .next (if !s.hung region || q.hangWindow == 0 || q.hangRaised || decide (s.hungFor region < q.hangWindow) then s
    else match (s.postedWaits region).filter lost with
      | [] => s.hangTrap region
      | ws =>
        let s := ws.foldl (fun s w => s.wakeWatchers (s.rootState w.1 w.2.2.value).2 w.2.2.value 1 (fun _ => true)) s
        s.modRegion region (fun q => { q with hangSince := some s.now }))

end Sys2Proof.Machine
end

