-- ==== Sys2Proof/Machine/Homes.lean ====
section
/-!
DEFINITION. What homes do with the requests that have reached them (12 R267, R268, 13 R281, R291, 14 R296, R300, 15 R316, R318, 17 R374):
in arrival order, past those that wait for a claim.
-/
namespace Sys2Proof.Machine

/-! Which request is next -/

def Msg.isRequest (m : Msg) : Bool := match m.body with | .mem _ => m.kind == 3 | .copyLine _ _ _ _ => true | _ => false

/-- The lines a request touches: the first, and the one past the last. Register windows have none. -/
def linesOf (h : Nat) (m : Msg) : Nat × Nat :=
  match m.body with
  | .mem q => if isTileHome h && decide (1048576 ≤ q.addr) then (0, 0) else 
      -- a join block is 40 bytes (08 R194)
      (q.addr / 64, (q.addr + (if q.op = .jdec then 40 else max q.size 1) - 1) / 64 + 1)
  | .copyLine a _ _ _ => (a / 64, a / 64 + 1)
  | _ => (0, 0)

def overlaps (a b : Nat × Nat) : Bool := decide (a.1 < b.2) && decide (b.1 < a.2)

/-- The copy request of an engine's unit. -/
def State.serialOf (s : State) (g unit : Nat) : Option Nat := ((s.tile g).e.units.find? (fun u => u.id == unit)).map (fun u => u.serial)

/-- A claim does not hold back a source read of its own request (15 R317). -/
def ownFetch (s : State) (m : Msg) (q : MemReq) (c : Claim) : Bool :=
  q.op == .fetch && c.srcHome == m.srcHome && (s.serialOf m.srcHome q.id).isSome && s.serialOf m.srcHome q.id == s.serialOf m.srcHome c.unit

/-- Does a claim of the unit still wait at the home? Claims travel ahead of their data (13 R291). -/
def claimWaits (l : List Msg) (src unit : Nat) : Bool :=
  l.any (fun x => match x.body with | .mem q => q.op == .claim && x.srcHome == src && q.id == unit | _ => false)

/-- A request waits: for a claim on a line it touches, for an earlier waiting request of its line or of its tile's threads, window 5
for the queued matrix entries, copy data for their own claim. -/
def heldBack (s : State) (h : Nat) (skipped : List Msg) (m : Msg) : Bool :=
  let ls := linesOf h m
  match m.body with
  | .copyLine _ _ _ u => claimWaits skipped m.srcHome u
  | .mem q =>
    (s.home h).claims.any (fun c => overlaps ls (c.line, c.line + 1) && !ownFetch s m q c) ||
    skipped.any (fun x => overlaps ls (linesOf h x) || (decide (m.sthr < 3) && decide (x.sthr < 3) && x.srcHome == m.srcHome)) ||
    (isTileHome h && q.addr / 1048576 == 5 && (s.tile h).e.mq.any (fun e => decide (e.serial < m.seen)))
  | _ => false

/-- Accesses whose home is a tile wait while a proofing pass tests it (18 R392). -/
def State.homeClosed (s : State) (h : Nat) : Bool := isTileHome h && (s.tile h).c.proofing

/-- The first request that does not wait, and the inbox without it. -/
def pickReq (s : State) (h : Nat) (skipped : List Msg) : List Msg → Option (Msg × List Msg)
  | [] => none
  | m :: r =>
    if m.isRequest && !heldBack s h skipped m && !s.homeClosed h then some (m, r)
    else match pickReq s h (if m.isRequest then skipped ++ [m] else skipped) r with
      | some (x, r') => some (x, m :: r')
      | none => none

def addrOfReq (m : Msg) : Nat := match m.body with | .mem q => q.addr | .copyLine a _ _ _ => a | _ => 0

/-- The next request at a home that is neither waiting nor for a forwarded line, if `p` picks it; the inbox is already without it. -/
def nextReq (s : State) (h : Nat) (p : MemReq → Bool) : Option (Msg × MemReq × State) :=
  match pickReq s h [] (s.home h).inbox with
  | none => none
  | some (m, rest) => match m.body with
    | .mem q => if (forwardOf s h q.addr).isNone && p q then some (m, q, s.modHome h (fun k => { k with inbox := rest })) else none
    | _ => none

/-! Answers -/

/-- Payload flits of the answer to a request: none for a write, one for a value, the bytes of a source read (13 R281, 15 R316). -/
def MemReq.answerLen (q : MemReq) : Nat :=
  match q.op with
  | .store | .jdec => 0
  | .fetch => (q.size + 15) / 16
  | .amo _ | .barrive => if q.awaited then 1 else 0
  | _ => 1

/-- A memory response: a value, or an acknowledgement (13 R281). -/
def State.respond (s : State) (h : Nat) (m : Msg) (q : MemReq) (v : Nat) (poisoned : Bool) (at_ : Nat) : State :=
  s.answer h m.src m.srcHome m.seq m.sthr q.answerLen (.resp q.id q.lane v poisoned at_)

/-- What a home reports of a poisoned granule whose value nobody awaits (16 R351). -/
def State.reportPoison (s : State) (h a : Nat) : State := s.reportTile h 0x21 0 (s.prefixOf h + a / 8 * 8)

/-- A request performed and answered. A read of a poisoned granule answers poisoned and does nothing else (16 R351). -/
def performReq (s : State) (h : Nat) (m : Msg) (q : MemReq) : State :=
  if q.op.reads && poisonedAt s h q.addr q.size then
    (if q.awaited then s else s.reportPoison h q.addr).respond h m q 0 q.awaited 0
  else
    let n := s.readFrom h q
    let (s, v) :=
      if q.op = .fetch ∧ q.stream ∧ isEdgeHome h then
        -- an engine's read on path 0x02: granule by granule, each as R289 admits
        (List.range ((q.addr + q.size + 7) / 8 - q.addr / 8)).foldl (fun (x : State × Nat) k =>
          let a := max q.addr (8 * (q.addr / 8 + k))
          let n := min (q.addr + q.size) (8 * (q.addr / 8 + k) + 8) - a
          let (s, w) := oRead x.1 m.srcHome 3 h a n
          (s, x.2 + w * 256 ^ (a - q.addr))) (s, 0)
      else doReq s h m q
    s.respond h m q v false n

/-! Steps of a home -/

/-- Requests that MEMORY_REQUEST performs: reads and writes of memory by threads, and an engine's source reads. -/
def plainOp (op : ReqOp) : Bool :=
  match op with
  | .load _ | .store | .amo _ | .lr | .sc | .watch _ | .fetch => true
  | _ => false

/-- Is the request for window `w` of a tile's path 0x01? -/
def atWindow (h : Nat) (q : MemReq) (lo hi : Nat) : Bool :=
  isTileHome h && decide (lo * 1048576 ≤ q.addr) && decide (q.addr < (hi + 1) * 1048576)

def execMemoryRequest (home : Nat) (s : State) : Host.Outcome State Fault Refusal :=
  .next (match nextReq s home (fun q => plainOp q.op && !atWindow home q 1 15) with
    | some (m, q, s) => performReq s home m q
    | none => s)

/-- REGISTER_WINDOW_ACCESS: between two steps every thread stands at an instruction boundary. -/
def execRegisterWindowAccess (home : Nat) (s : State) : Host.Outcome State Fault Refusal :=
  .next (match nextReq s home (fun q => atWindow home q 1 4 || atWindow home q 6 6) with
    | some (m, q, s) => performReq s home m q
    | none => s)

def execAccumulatorWindowAccess (home : Nat) (s : State) : Host.Outcome State Fault Refusal :=
  .next (match nextReq s home (fun q => atWindow home q 5 5) with
    | some (m, q, s) => performReq s home m q
    | none => s)

/-- STREAM_WINDOW_STORE (12 R268): the word of the oldest ejected stream data, where they are a window 7 store's, enters the store, and the store is acknowledged
(13 R281). -/
def execStreamWindowStore (home : Nat) (s : State) : Host.Outcome State Fault Refusal :=
  .next (match takeMsg Msg.isStream (s.home home).inbox with
    | some (m, rest) => match m.body with
      | .mem q =>
        if 256 ≤ (s.tile home).e.store.length then s
        else ((s.modHome home (fun k => { k with inbox := rest })).modTile home (fun t =>
          (t.modEng (fun e => pushStream e ⟨BitVec.ofNat 64 q.data, m.vc, m.src, m.sent⟩)).feed)).respond home m q 0 false 0
      | _ => s
    | none => s)

def execBarrierArrival (home : Nat) (s : State) : Host.Outcome State Fault Refusal :=
  .next (match nextReq s home (fun q => q.op == .barrive) with
    | some (m, q, s) => performReq s home m q
    | none => s)

/-- JOIN_DECREMENT. At a poisoned block nothing is decremented, and a share that it carries returns to its sender (DEDUCED, assumption 111). -/
def execJoinDecrement (home : Nat) (s : State) : Host.Outcome State Fault Refusal :=
  .next (match nextReq s home (fun q => q.op == .jdec) with
    | some (m, q, s) =>
      (if poisonedAt s home q.addr 40 then (s.returnWeight home m).reportPoison home q.addr
       else joinAt s home m q.addr).respond home m q 0 false 0
    | none => s)

/-- COPY_CLAIM: the line is free; the grant removes every reservation in it. -/
def execCopyClaim (home : Nat) (s : State) : Host.Outcome State Fault Refusal :=
  .next (match nextReq s home (fun q => q.op == .claim) with
    | some (m, q, s) => s.modHome home (fun k =>
        { k with claims := k.claims ++ [⟨q.addr / 64, m.srcHome, q.id⟩],
                 resv := k.resv.filter (fun r => r.granule / 8 != q.addr / 64) })
    | none => s)

/-- Every claim of a unit falls. -/
def State.releaseClaims (s : State) (h src unit : Nat) : State :=
  s.modHome h (fun q => { q with claims := q.claims.filter (fun c => !(c.srcHome == src && c.unit == unit)) })

/-- COPY_DATA: the bytes of the mask, a run of one line, are written together; the claim is released and the unit acknowledged. -/
def execCopyData (home : Nat) (s : State) : Host.Outcome State Fault Refusal :=
  .next (match pickReq s home [] (s.home home).inbox with
    | some (m, rest) => match m.body with
      | .copyLine a mask data u =>
        if (forwardOf s home a).isSome then s
        else
          let o := ctzN 64 mask
          let n := popN 64 mask
          let s := s.modHome home (fun k => { k with inbox := rest })
          let s := if n = 0 then s else s.storeAt home (a / 64 * 64 + o) (natBytes n (data / 256 ^ o)) m.srcHome 3
          ((s.releaseClaims home m.srcHome u).ringMoves home).ackUnit home m u
      | _ => s
    | none => s)

/-- COPY_INCREMENT: the counter, its watches, and the copy's share on its way back (10 R241). A poisoned counter is reported and keeps its
value (16 R351). -/
def execCopyIncrement (home : Nat) (s : State) : Host.Outcome State Fault Refusal :=
  .next (match nextReq s home (fun q => q.op == .increment) with
    | some (m, q, s) =>
      let v := (s.loadAt home q.addr 8 + q.data) % 18446744073709551616
      let s := if poisonedAt s home q.addr 8 then s.reportPoison home q.addr else s.storeAt home q.addr (natBytes 8 v) m.srcHome 3
      (s.returnWeight home m).ackUnit home m q.id
    | none => s)

/-- FORWARDED_ACCESS: a request for a line that has moved goes on to its new home (17 R374). -/
def execForwardedAccess (home : Nat) (s : State) : Host.Outcome State Fault Refusal :=
  .next (match pickReq s home [] (s.home home).inbox with
    | none => s
    | some (m, rest) => match forwardOf s home (addrOfReq m) with
      | none => s
      | some f =>
        let pa := f.target + addrOfReq m % 2097152
        let to_ := edgeHome (homeWafer home) (pa / 68719476736 % 128)
        let a := pa % 68719476736
        let body := match m.body with
          | .mem q => .mem { q with addr := a }
          | .copyLine _ mask d u => .copyLine a mask d u
          | b => b
        if !s.homeRoom home 13 m.len then s
        else (s.modHome home (fun k => { k with inbox := rest })).inject home
          { m with dst := s.homeName to_, dstHome := to_, body := body, route := none })

end Sys2Proof.Machine
end

