-- ==== Sys2Proof/Machine/Sync.lean ====
section
/-!
DEFINITION. Barrier words and completion counters at the waiting thread (14 R298 to R304): `barrive`, `bwait`, `cwaitge`, `ctest`, and
their watches. What the home does is in Mem.lean and Homes.lean.
-/
namespace Sys2Proof.Machine

def execBarrive (o : CR) (s : State) : Host.Outcome State Fault Refusal :=
  s.run (.barrive o) (fun s =>
    let a := s.getXn o.rs1
    access s a 8 .atomic (fun s p =>
      (issueReq s p { mkReq .barrive p 8 0 a with awaited := o.rd != 0 } (clsR + clsW) false
        (if o.rd = 0 then .nowhere else .x o.rd 8 false) a true).retire o.s))

def execCtest (o : CR) (s : State) : Host.Outcome State Fault Refusal :=
  s.run (.ctest o) (fun s =>
    let a := s.getXn o.rs1
    if !lrAllowed a then s.takeTrap 0x05 0 a
    else access s a 8 .probe (fun s p =>
      (issueReq s p (mkReq (.watch false) p 8 0 a) clsR false (.test o.rd (s.getXn o.rs2)) a false).retire o.s))

/-! Waiting (R301 to R303) -/

/-- The wait of `bwait` and `cwaitge` for a wake, after a read that found the condition false; `phaseVal` is the watch's number. -/
def inWatch : Nat := 5

/-- The wait for the first read. -/
def inFirstRead : Nat := 7

/-- The operands of a waiting instruction: address, wait-table kind, awaited value, and the condition. -/
structure WaitFor where
  addr : Nat
  kind : Nat
  value : Nat

def WaitFor.met (w : WaitFor) (v : Nat) : Bool :=
  if w.kind = 3 then v / 281474976710656 != w.value else decide (w.value ≤ v)

def bwaitFor (o : CR) (s : State) : WaitFor := ⟨s.getXn o.rs1, 3, s.getXn o.rs2 % 65536⟩
def cwaitFor (o : CR) (s : State) : WaitFor := ⟨s.getXn o.rs1, 2, s.getXn o.rs2⟩

/-- Drops the watches of a thread at every home. -/
def State.dropWatches (s : State) (g h : Nat) : State :=
  { s with homes := s.homes.map (fun (p : Nat × HomeSt) =>
      (p.1, { p.2 with watches := p.2.watches.filter (fun w => !(w.srcHome == g && w.thread == h)),
                       lost := p.2.lost.filter (fun w => !(w.srcHome == g && w.thread == h)) })) }

/-- Does a read that registers a watch still wait for its answer? -/
def Thread.reading (t : Thread) : Bool := t.run.outs.any (fun o => o.dst == .watch)

/-- The read's value is known: the instruction completes, or the thread sleeps with the watch. -/
def judge (w : WaitFor) (sb : Bool) (v : Nat) (s : State) : State :=
  if w.met v then (s.dropWatches s.focus.tile s.focus.thread).retire sb
  else (s.modMe (fun t => t.modRun (fun r => { r with phase := inWatch, answer := none }))).sleep w.kind w.addr w.value

/-- A read that registers a watch. -/
def readWatched (w : WaitFor) (sb : Bool) (s : State) : State :=
  let s := s.dropWatches s.focus.tile s.focus.thread
  if !lrAllowed w.addr then s.takeTrap 0x05 0 w.addr
  else access s w.addr 8 .probe (fun s p =>
    let id := s.myTile.e.nextId
    let s := s.modMe (fun t => t.modRun (fun r => { r with phase := if r.phase = inWatch then inWatch else inFirstRead, phaseVal := id, watchAt := s.now }))
    let s := issueReq s p { mkReq (.watch true) p 8 0 w.addr with id := id } clsR false .watch w.addr false
    let s := s.modMyTile (fun t => t.modEng (fun e => { e with nextId := max e.nextId (id + 1) }))
    match s.me.run.answer with
    | some v => judge w sb v s
    | none => if s.me.run.ts == .sleeping || (s.me.run.phase == inWatch) then s.sleep w.kind w.addr w.value else s.waitHere)

def doWaitFor (w : WaitFor) (sb : Bool) (s : State) : State :=
  match s.me.run.answer with
  | some v => judge w sb v s
  | none => if s.me.reading then s.waitHere else readWatched w sb s

def execBwait (o : CR) (s : State) : Host.Outcome State Fault Refusal := s.run (.bwait o) (fun s => doWaitFor (bwaitFor o s) o.s s)
def execCwaitge (o : CR) (s : State) : Host.Outcome State Fault Refusal := s.run (.cwaitge o) (fun s => doWaitFor (cwaitFor o s) o.s s)

/-- The sleeping `bwait` or `cwaitge` of the thread in focus, run through `f`. -/
def State.atWait (s : State) (f : WaitFor → Bool → State → State) : State :=
  s.asleepAt (fun i => match i with
    | .bwait o => some (fun s => f (bwaitFor o s) o.s s)
    | .cwaitge o => some (fun s => f (cwaitFor o s) o.s s)
    | _ => none)

/-- Does the thread in focus sleep in `bwait` or `cwaitge`? -/
def State.waitsWord (s : State) : Bool :=
  s.me.run.ts == .sleeping && s.me.run.phase == inWatch &&
  (match s.me.run.wait with | some w => w.kind == 2 || w.kind == 3 | none => false)

/-- WATCH_WAKE: a wake with the granule's new value. It stays while the read that registered its watch is unanswered; one for another
watch than the thread's is discarded. -/
def execWatchWake (s : State) : Host.Outcome State Fault Refusal :=
  let g := s.focus.tile
  let mine (m : Msg) : Bool := match m.body with | .wake _ _ => m.sthr == s.focus.thread | _ => false
  .next (match takeMsg mine (s.home g).inbox with
    | none => s
    | some (m, rest) => match m.body with
      | .wake id v =>
        let out := s.modHome g (fun q => { q with inbox := rest })
        if s.me.run.phaseVal ≠ id then out
        else if s.me.reading || s.me.run.answer.isSome then s
        else if !s.waitsWord then out
        else out.atWait (fun w sb s => if w.met v then judge w sb v s else readWatched w sb s)
      | _ => s)

/-- Has any home a watch of the thread, or had one when it died: such a waiter sleeps on (14 R304)? -/
def State.watched (s : State) (g h : Nat) : Bool := s.homes.any (fun p => (p.2.watches ++ p.2.lost).any (fun w => w.srcHome == g && w.thread == h))

/-- WATCH_RETRY: a waiter whose registration was refused reads again after 1,024 ns. -/
def execWatchRetry (s : State) : Host.Outcome State Fault Refusal :=
  let g := s.focus.tile
  let h := s.focus.thread
  .next (if !s.waitsWord || s.me.reading || s.watched g h || decide (s.now < s.me.run.watchAt + 1024) ||
      (s.home g).inbox.any (fun m => match m.body with | .wake id _ => id == s.me.run.phaseVal | _ => false) then s
    else s.atWait readWatched)

end Sys2Proof.Machine
end

