-- ==== Sys2Proof/Machine/Copy.lean ====
section
/-!
DEFINITION. The copy engine (15 R307 to R322): pushing requests, walking boxes into units, claims and source reads, copy data, completion.
-/
namespace Sys2Proof.Machine

/-! Request words (R312, R314) -/

def cqHid (w2 : Nat) : Nat := w2 / 1125899906842624 % 64
def cqEs (w2 : Nat) : Nat := 2 ^ (w2 / 281474976710656 % 4)
def cqE2 (w2 : Nat) : Nat := w2 / 4294967296 % 65536
def cqE1 (w2 : Nat) : Nat := w2 / 65536 % 65536
def cqE0 (w2 : Nat) : Nat := w2 % 65536
def cqInc (w3 : Nat) : Nat := w3 / 281474976710656 % 65536
def cqName (w3 : Nat) : Nat := w3 / 16384 % 17179869184
def cqOff (w3 : Nat) : Nat := w3 % 16384
/-- Elements of a box. -/
def cqCount (w2 : Nat) : Nat := cqE0 w2 * cqE1 w2 * cqE2 w2
def isWin8 (w1 : Nat) : Bool := pathOf w1 == 1 && addrWin w1 == 8

def sgn64 (v : Nat) : Int := if v < 9223372036854775808 then (v : Int) else (v : Int) - 18446744073709551616
def wrap64 (v : Int) : Nat := (v % 18446744073709551616).toNat

/-! The checks at issue (R313) -/

/-- The lowest start of a row in an arithmetic series of `n` rows that ends beyond `lim`; `len` is the row's length. -/
def lowestBeyond (start step : Int) (n : Nat) (len lim : Int) : Option Int :=
  -- the starts r with lim < r + len
  if step = 0 ∨ n ≤ 1 then (if lim < start + len then some start else none)
  else if 0 < step then
    let i := max 0 ((lim - len - start) / step + 1)
    if i < n then some (start + i * step) else none
  else if lim < start + len then
    let i := min ((n : Int) - 1) ((start + len - lim - 1) / (-step))
    some (start + i * step)
  else none

/-- The lowest failing byte of one row of `n` bytes that starts at `r`, whose addresses are modulo 2^64; the window's bytes are [base, lim). -/
def rowFails (base lim n r : Nat) : Option Nat :=
  if 18446744073709551616 < r + n then some 0
  else if r < base ∨ lim ≤ r then some r
  else if lim < r + n then some lim
  else none

/-- The failing byte of lowest address of the rows of a box on path 0x01, each of `n` bytes, if one lies outside [0, 0x2_0000) of its
window. A box that passes an end of the address space is looked at row by row. -/
def boxFails (a s1 s2 w2 n : Nat) : Option Nat :=
  if pathOf a ≠ 1 then none
  else
    let base : Int := (a / 1048576 * 1048576 : Nat)
    let len : Int := (n : Nat)
    let t1 := sgn64 s1
    let t2 := sgn64 s2
    let low : Int := (a : Int) + min 0 (((cqE1 w2 : Int) - 1) * t1) + min 0 (((cqE2 w2 : Int) - 1) * t2)
    let lim := base + 131072
    let high : Int := (a : Int) + max 0 (((cqE1 w2 : Int) - 1) * t1) + max 0 (((cqE2 w2 : Int) - 1) * t2) + len
    let lower (m : Option Nat) (x : Nat) : Option Nat := match m with | some y => some (min y x) | none => some x
    if low < 0 ∨ 18446744073709551616 < high then
      (List.range (cqE1 w2 * cqE2 w2)).foldl (fun m k =>
        match rowFails (a / 1048576 * 1048576) (a / 1048576 * 1048576 + 131072) n
            (wrap64 ((a : Int) + (k % cqE1 w2 : Nat) * t1 + (k / cqE1 w2 : Nat) * t2)) with
        | some x => lower m x
        | none => m) none
    else if low < base then some (wrap64 low)
    else
      if high ≤ lim then none
      else
        let bad (j : Nat) : Option Int := (lowestBeyond ((a : Int) + j * t2) t1 (cqE1 w2) len lim).map (fun r => max r lim)
        ((List.range (cqE2 w2)).filterMap bad).foldl (fun m r => lower m (wrap64 r)) none

/-- The lower of two failing addresses. -/
def lowerFail (a b : Option Nat) : Option Nat :=
  match a, b with
  | some x, some y => some (min x y)
  | none, b => b
  | a, none => a

/-- Cause and address of the first failing check, if any. Within step 4 the limits are taken in R313's own order, for a window 8 copy the word
w2 before its destination (DESIGN CHOICE, assumption 135). -/
def cqCheck (w0 w1 w2 s1 s2 d1 d2 : Nat) : Option (Nat × Nat) :=
  let virt (a : Nat) : Bool := decide (a / 72057594037927936 % 4 = 0)
  let es := cqEs w2
  let hid := cqHid w2
  if w2 / 72057594037927936 ≠ 0 then some (0x07, w2)
  else if cqCount w2 = 0 then none
  else if !((pathOf w0 == 0 || pathOf w0 == 2) && virt w0 || pathOf w0 == 1 && addrWin w0 == 0) then some (0x07, w0)
  else if !(pathOf w1 == 0 && virt w1 || pathOf w1 == 1 && (addrWin w1 == 0 || addrWin w1 == 8)) then some (0x07, w1)
  else if hid ≠ 0 ∧ (pathOf w1 ≠ 1 ∨ addrWin w1 ≠ 0 ∨ w1 % 64 ≠ 0) then some (0x07, w1)
  else if hid ≠ 0 ∧ d1 % 64 ≠ 0 ∧ cqE1 w2 ≠ 1 then some (0x07, d1)
  else if hid ≠ 0 ∧ d2 % 64 ≠ 0 ∧ cqE2 w2 ≠ 1 then some (0x07, d2)
  else if hid ≠ 0 ∧ 448 < cqE0 w2 * es then some (0x07, w2)
  else match if hid = 0 then none else boxFails w1 d1 d2 w2 512 with
  | some a => some (0x07, a)
  | none =>
  if isWin8 w1 ∧ (hid ≠ 0 ∨ cqCount w2 * es % 32 ≠ 0) then some (0x07, w2)
  else if isWin8 w1 ∧ addrOff w1 ≠ 0 then some (0x07, w1)
  else match [w0, w1, s1, s2, d1, d2].find? (fun v => decide (v % es ≠ 0)) with
    | some v => some (0x06, v)
    | none =>
      let row := cqE0 w2 * es
      (lowerFail (boxFails w0 s1 s2 w2 row) (boxFails w1 d1 d2 w2 row)).map (fun a => (0x07, a))

/-! Pushing (R307, R309 to R311) -/

/-- The four words of a request and the check of the thread in focus. -/
def cqWords (o : CR) (s : State) : Nat × Nat × Nat × Nat := (s.getXn o.rs1, s.getXn (o.rs1 + 1), s.getXn (o.rs1 + 2), s.getXn (o.rs1 + 3))
def cqTrap (o : CR) (s : State) : Option (Nat × Nat) :=
  let (w0, w1, w2, _) := cqWords o s
  let r := s.me.r
  cqCheck w0 w1 w2 r.csrcS1.toNat r.csrcS2.toNat r.cdstS1.toNat r.cdstS2.toNat

/-- Free slots of the FIFO. -/
def State.cqFree (s : State) : Nat := 8 - s.myTile.e.copies.length

/-- Acceptance of the request of the thread in focus with a share. -/
def State.cqAccept (s : State) (o : CR) (share dom : Nat) : State :=
  let (w0, w1, w2, w3) := cqWords o s
  let r := s.me.r
  let n := s.myTile.e.copySerial
  let c : CopyEntry :=
    { serial := n, thread := s.focus.thread, pc := r.pc, word := s.focus.word, w0 := w0, w1 := w1, w2 := w2, w3 := w3,
      s1 := r.csrcS1.toNat, s2 := r.csrcS2.toNat, d1 := r.cdstS1.toNat, d2 := r.cdstS2.toNat, share := share, dom := dom, give := .none,
      prog := 0, cur := 0, st := if cqCount w2 = 0 then .landing else .accepted, incId := 0, xl := [], region := s.regionIdOf s.focus.tile }
  s.modMyTile (fun t => t.modEng (fun e => { e with copies := e.copies ++ [c], copySerial := n + 1 }))

def doCqpush (o : CR) (s : State) : State :=
  match cqTrap o s with
  | some (c, a) => s.takeTrap c 0 a
  | none =>
    if s.cqFree = 0 ∨ s.heldOrder s.focus.tile s.focus.thread clsW s.focus.tile then s.waitHere
    else
      let (s, r) := s.give
      match r with
      | .wait => s.waitHere
      | .share lv lexp dom => (s.cqAccept o (if lv then shareOf lexp else 0) dom).retire o.s

def execCqpush (o : CR) (s : State) : Host.Outcome State Fault Refusal := s.run (.cqpush o) (doCqpush o)

/-- A long-latency result of the thread in focus (01 R23). -/
def State.slowResult (s : State) (o : CR) (v : Nat) : State := (s.addPend ⟨false, o.rd, v, 0, .done, false⟩).retire o.s

def doCqtry (o : CR) (s : State) : State :=
  match cqTrap o s with
  | some (c, a) => s.takeTrap c 0 a
  | none => s.longLatency (fun s =>
    if s.heldOrder s.focus.tile s.focus.thread clsW s.focus.tile then s.waitHere
    else if s.cqFree = 0 ∨ (s.me.r.qwV ∧ s.me.r.weight = 1) then s.slowResult o 1
    else
      let (s', r) := s.give
      match r with
      | .share lv lexp dom => (s'.cqAccept o (if lv then shareOf lexp else 0) dom).slowResult o 0
      | .wait => s.slowResult o 1)

def execCqtry (o : CR) (s : State) : Host.Outcome State Fault Refusal := s.run (.cqtry o) (doCqtry o)

def execCqtryProbe (o : CR) (s : State) : Host.Outcome State Fault Refusal :=
  s.run (.cqtryProbe o) (fun s => s.longLatency (fun s => s.slowResult o (if s.cqFree = 0 then 1 else 0)))

def execCqctlFree (o : CR) (s : State) : Host.Outcome State Fault Refusal :=
  s.run (.cqctlFree o) (fun s => s.longLatency (fun s => s.slowResult o s.cqFree))

/-- The wait of `cqctl.wait`; `phaseVal` is the serial number of the first request that it does not wait for. -/
def inCqWait : Nat := 6

/-- The requests of the tile that an eviction has saved with their thread (R321). -/
def State.savedCopies (s : State) (g : Nat) : List CopyEntry :=
  ((s.region (s.regionOf g)).swaps.map (fun w => if w.2.tile = g then w.2.copies else [])).flatten

def doCqctlWait (o : CR) (s : State) : State :=
  let e := s.myTile.e
  let bound := if s.me.run.phase = inCqWait then s.me.run.phaseVal else e.copySerial
  if (e.copies ++ s.savedCopies s.focus.tile).all (fun c => decide (bound ≤ c.serial)) && e.units.all (fun u => decide (bound ≤ u.serial)) then s.retire o.s
  else (s.modMe (fun t => t.modRun (fun r => { r with phase := inCqWait, phaseVal := bound }))).waitHere

def execCqctlWait (o : CR) (s : State) : Host.Outcome State Fault Refusal := s.run (.cqctlWait o) (doCqctlWait o)

/-! The walk (R314, R315) -/

/-- Address of element k of a box. -/
def cqAt (base s1 s2 w2 k : Nat) : Nat :=
  let e0 := cqE0 w2
  wrap64 ((base : Int) + ((k % e0 * cqEs w2 : Nat) : Int) + (k / e0 % cqE1 w2 : Nat) * sgn64 s1 + (k / (e0 * cqE1 w2) : Nat) * sgn64 s2)

def CopyEntry.src (c : CopyEntry) (k : Nat) : Nat := cqAt c.w0 c.s1 c.s2 c.w2 k
def CopyEntry.dst (c : CopyEntry) (k : Nat) : Nat := cqAt c.w1 c.d1 c.d2 c.w2 k
def CopyEntry.es (c : CopyEntry) : Nat := cqEs c.w2

/-- How many more elements join a plain unit: contiguous, in one line. -/
def plainRun (c : CopyEntry) (first : Nat) : Nat → Nat → Nat
  | 0, n => n
  | fuel + 1, n =>
    let k := first + n
    if k < cqCount c.w2 ∧ c.dst k = c.dst (k - 1) + c.es ∧ c.dst k / 64 = c.dst first / 64 then plainRun c first fuel (n + 1) else n

/-- Elements of the unit that starts at element `cur`. -/
def CopyEntry.unitLen (c : CopyEntry) : Nat :=
  if cqHid c.w2 ≠ 0 then cqE0 c.w2 else if isWin8 c.w1 then 32 / c.es else plainRun c c.cur 63 1

/-- Source reads of a unit: contiguous bytes within one 64-byte line, as (place in the unit, address, bytes). -/
def srcRuns (c : CopyEntry) (n : Nat) : List (Nat × Nat × Nat) :=
  (List.range n).foldl (fun (l : List (Nat × Nat × Nat)) i =>
    let a := c.src (c.cur + i)
    match l.getLast? with
    | some (p, b, m) => if a = b + m ∧ a / 64 = b / 64 then l.dropLast ++ [(p, b, m + c.es)] else l ++ [(i * c.es, a, c.es)]
    | none => [(0, a, c.es)]) []

/-! Sending (R316, R319) -/

def State.entryOf (s : State) (g serial : Nat) : Option CopyEntry := (s.tile g).e.copies.find? (fun c => c.serial == serial)
def State.modEntry (s : State) (g serial : Nat) (f : CopyEntry → CopyEntry) : State :=
  s.modTile g (fun t => t.modEng (fun e => { e with copies := e.copies.map (fun c => if c.serial = serial then f c else c) }))
def State.modUnit (s : State) (g id : Nat) (f : CopyUnit → CopyUnit) : State :=
  s.modTile g (fun t => t.modEng (fun e => { e with units := e.units.map (fun u => if u.id = id then f u else u) }))
def State.dropUnit (s : State) (g id : Nat) : State :=
  s.modTile g (fun t => t.modEng (fun e => { e with units := e.units.filter (fun u => u.id != id) }))
def State.dropEntry (s : State) (g serial : Nat) : State :=
  s.modTile g (fun t => t.modEng (fun e => { e with copies := e.copies.filter (fun c => c.serial != serial) }))

/-- A message of the engine, of its own SEQ and STHR (07 R156; assumption 87): into the router, or behind what waits for it. -/
def State.sendEngine (s : State) (g dst home kind len : Nat) (lv : Bool) (lexp region aux handler : Nat) (body : Payload) : State :=
  s.sendAccess g { dst := dst, src := s.nameOf g, dstHome := home, srcHome := g, vc := 13, kind := kind, lv := lv, lexp := lexp, len := len,
                   region := region, handler := handler, seq := 0, sthr := 3, aux := aux, body := body } 0 0

/-- A record's share out of the engine's (R240, R319). -/
def engineGive (s : State) (g : Nat) (c : CopyEntry) : State × Give :=
  if c.share = 0 then (s, .share false 0 c.dom)
  else if c.share = 1 then
    if c.give = .asked then (s, .wait)
    else
      let e := s.domain (clusterOf g) c.dom
      if c.give = .refused ∨ e.state = 0 then (s.modEntry g c.serial (fun c => { c with share := 0, give := .none }), .share false 0 c.dom)
      else
        ((s.modEntry g c.serial (fun c => { c with give := .asked })).sendHw g e.root (nameTile e.root) 15 7 0 false 0 c.region c.dom 0
          (.borrow 0 c.dom 3), .wait)
  else
    let b := Nat.log2 c.share
    (s.modEntry g c.serial (fun c => { c with share := c.share - 2 ^ (b - 1), give := .none }), .share true (63 - b) c.dom)

/-- A window 8 unit as a task record (R192); it waits for its share. The unit of an abandoned request ends. -/
def sendTask (s : State) (g : Nat) (u : CopyUnit) : State :=
  match s.entryOf g u.serial with
  | none => s.dropUnit g u.id
  | some c =>
    let (s, r) := engineGive s g c
    match r with
    | .wait => s
    | .share lv lexp dom =>
      let d2 := recWith (u.data / 2 ^ 128 % 18446744073709551616) u.region false 0 0 + (if lv then dom * 2199023255552 else 0)
      (s.modUnit g u.id (fun u => { u with sent := true })).sendHw g u.dstName u.home 12 2 2 lv lexp u.region 0 0
        (.task (u.data % 18446744073709551616) (u.data / 18446744073709551616 % 18446744073709551616) d2 (u.id + 1))

/-- Can a unit's data leave now: its source reads are complete, and records and packets of a request keep their order (08 R192, 15 R317);
copy data for the own tile find its landing queue open (R324), and a record that borrows waits? -/
def State.unitReady (s : State) (g : Nat) (u : CopyUnit) : Bool :=
  !u.sent && u.left == 0 &&
  !((u.task || u.hid != 0) && (s.tile g).e.units.any (fun x => x.serial == u.serial && !x.sent && decide (x.id < u.id))) &&
  !(!u.task && u.home == g && s.landFull g) &&
  !(u.task && (match s.entryOf g u.serial with | some c => c.give == .asked || !s.canInject g 12 2 | none => false))

/-- The data of a unit whose source reads are complete leave; a failed unit only releases its claims. -/
def State.sendUnit (s : State) (g : Nat) (u : CopyUnit) : State :=
  if !s.unitReady g u then s
  else if u.task then (if u.failed then s.dropUnit g u.id else sendTask s g u)
  else
    let s := s.modUnit g u.id (fun u => { u with sent := true })
    if u.failed then s.sendEngine g u.dstName u.home 5 5 false 0 u.region 0 0 (.copyLine (u.addr / 64 * 64) 0 0 u.id)
    else if u.hid = 0 then
      let o := u.addr % 64
      s.sendEngine g u.dstName u.home 5 5 false 0 u.region 0 0
        (.copyLine (u.addr / 64 * 64) ((2 ^ u.bytes - 1) * 2 ^ o) (u.data * 256 ^ o) u.id)
    else s.sendEngine g u.dstName u.home 5 (1 + (u.bytes + 15) / 16) false 0 u.region 0 u.hid (.packet u.addr u.bytes u.data u.row u.id)

/-! Issue (R317) -/

/-- An address of the engine: a place, a walk to ask for, or a miss. -/
def engineTarget (s : State) (g : Nat) (c : CopyEntry) (a n : Nat) (k : AccKind) : XlRes :=
  if pathOf a = 1 then .place (placeOfTileAddr a) else translate s g c.xl a n k

/-- The first address of a list that does not resolve. -/
def firstOpen (s : State) (g : Nat) (c : CopyEntry) : List (Nat × Nat × AccKind) → Option (Nat × Nat × AccKind × XlRes)
  | [] => none
  | (a, n, k) :: r => match engineTarget s g c a n k with
    | .place _ => firstOpen s g c r
    | x => some (a, n, k, x)

/-- A unit leaves: its claims in line order, then its source reads. -/
def State.issueUnit (s : State) (g : Nat) (c : CopyEntry) (n : Nat) (runs : List (Nat × Nat × Nat)) : State :=
  let id := (s.tile g).e.nextId
  let d := c.dst c.cur
  let w8 := isWin8 c.w1
  let hid := cqHid c.w2
  let p : Place := if w8 then ⟨nameTile (addrName d), 0, addrName d⟩
    else match engineTarget s g c d c.es .amo with | .place p => p | _ => ⟨0, 0, 0⟩
  let u : CopyUnit :=
    { id := id, serial := c.serial, row := c.cur / cqE0 c.w2, home := p.home, dstName := p.dst, addr := p.addr, bytes := n * c.es, data := 0,
      left := runs.length, srcs := runs.map (fun x => (x.1, x.2.1)), region := c.region, hid := hid, task := w8, failed := false, sent := false }
  let s := s.modTile g (fun t => t.modEng (fun e => { e with nextId := id + 1, units := e.units ++ [u] }))
  let s := s.modEntry g c.serial (fun c =>
    { c with prog := c.prog + 1, cur := c.cur + n, xl := [], st := if c.cur + n < cqCount c.w2 then .issuing else .landing })
  let claim (a : Nat) : MemReq :=
    { op := .claim, addr := a, size := 64, data := 0, id := id, lane := 0, local_ := false, stream := false, awaited := false }
  let s := (if w8 then [] else (List.range (if hid = 0 then 1 else 8))).foldl (fun s k =>
    s.sendEngine g p.dst p.home 3 1 false 0 c.region 0 0 (.mem (claim (p.addr / 64 * 64 + 64 * k)))) s
  runs.foldl (fun s x =>
    match engineTarget s g c x.2.1 x.2.2 .probe with
    | .place q => s.sendEngine g q.dst q.home 3 1 false 0 c.region 0 0
        (.mem { op := .fetch, addr := q.addr, size := x.2.2, data := 0, id := id, lane := x.1, local_ := false,
                stream := pathOf x.2.1 == 2, awaited := true })
    | _ => s) s

/-- Does the engine hold back the requests of a thread: it has stopped for a save or an eviction (R321), or its tile is in a proofing
pass (18 R392)? -/
def State.copyHeld (s : State) (g h : Nat) : Bool :=
  let ten := (s.region (s.regionOf g)).ten
  let c := (s.tile g).c
  ((ten == ctxDraining || ten == ctxTerminating) && (s.thread g h).run.ts.atRest) || s.savesUnsent g h || c.proofing || c.proofDue

/-- The next unit of a request, or the walk it waits for, or its fault (R320, R347). -/
def State.walkOn (s : State) (g : Nat) (c : CopyEntry) : State :=
  if cqCount c.w2 ≤ c.cur then s.modEntry g c.serial (fun c => { c with st := .landing })
  else
    let n := c.unitLen
    let runs := srcRuns c n
    let dst := if isWin8 c.w1 then [] else [(c.dst c.cur, c.es, AccKind.amo)]
    match firstOpen s g c (dst ++ runs.map (fun x => (x.2.1, x.2.2, AccKind.probe))) with
    | none => s.issueUnit g c n runs
    | some (a, n, k, .miss sub) =>
      let _ := (n, k)
      (s.dropEntry g c.serial).trapSoon g c.thread ⟨0x18, sub, a, c.pc, c.word, true, 0⟩
    | some (a, n, k, _) => s.askWalk g ⟨3, c.serial, a, k, n⟩

/-- COPY_UNIT_ISSUE: the copy engine of the tile in focus goes on: data that wait leave first, the records and packets of a request in
their order (08 R192, 15 R317), then the next unit of the first request that has one. -/
def execCopyUnitIssue (s : State) : Host.Outcome State Fault Refusal :=
  let g := s.focus.tile
  let e := s.myTile.e
  .next (match e.units.find? (s.unitReady g) with
    | some u => s.sendUnit g u
    | none => match e.copies.find? (fun c => (c.st == .accepted || c.st == .issuing) && !s.copyHeld g c.thread) with
      | some c => s.walkOn g c
      | none => s)

/-! Completion (R318, R319) -/

/-- COPY_REQUEST_COMPLETE: the oldest request is done; its increment leaves, or without a counter its share returns. -/
def execCopyRequestComplete (s : State) : Host.Outcome State Fault Refusal :=
  let g := s.focus.tile
  .next (match s.myTile.e.copies with
    | [] => s
    | c :: _ =>
      if c.st ≠ .landing ∨ c.cur < cqCount c.w2 ∨ s.myTile.e.units.any (fun u => u.serial == c.serial) then s
      else if cqName c.w3 = 0 then (s.dropEntry g c.serial).hwReturnAll g c.dom c.share
      else
        let id := s.myTile.e.nextId
        let b := Nat.log2 c.share
        let ride := if c.share = 0 then 0 else 2 ^ b
        let s := s.modMyTile (fun t => t.modEng (fun e => { e with nextId := id + 1 }))
        let s := s.modEntry g c.serial (fun c => { c with st := .increment, incId := id, share := c.share - ride })
        s.sendEngine g (cqName c.w3) (nameTile (cqName c.w3)) 3 2 (decide (0 < c.share)) (62 - b) c.region c.dom 0
          (.mem { op := .increment, addr := 8 * cqOff c.w3, size := 8, data := cqInc c.w3, id := id, lane := 0, local_ := false,
                  stream := false, awaited := false }))

/-- The entry whose increment a response answers. -/
def State.increments (s : State) (g id : Nat) : Option CopyEntry := (s.tile g).e.copies.find? (fun c => c.st == .increment && c.incId == id)

/-- COPY_INCREMENT_ACK: the slot frees, and what is left of the share returns. -/
def execCopyIncrementAck (s : State) : Host.Outcome State Fault Refusal :=
  let g := s.focus.tile
  let mine (m : Msg) : Bool := match m.body with | .resp id _ _ _ _ => (s.increments g id).isSome | _ => false
  .next (match takeMsg mine (s.home g).inbox with
    | none => s
    | some (m, rest) => match m.body with
      | .resp id _ _ _ _ => match s.increments g id with
        | some c => ((s.modHome g (fun q => { q with inbox := rest })).dropEntry g c.serial).hwReturnAll g c.dom c.share
        | none => s
      | _ => s)

end Sys2Proof.Machine
end

