-- ==== Sys2Proof/Machine/Landing.lean ====
section
/-!
DEFINITION. Landing packets and the landing thread t2 (15 R323 to R336): arrival, the handler's start, its instructions, and its end.
-/
namespace Sys2Proof.Machine

/-! Arrival and start (R324) -/

/-- Does a claim that a unit holds at the home hold back a claim of another unit? -/
def claimBlocks (q : HomeSt) (src unit src' unit' : Nat) : Bool :=
  q.claims.any (fun c => c.srcHome == src && c.unit == unit && q.inbox.any (fun x => match x.body with
    | .mem r => r.op == .claim && x.srcHome == src' && r.id == unit' && c.line == r.addr / 64
    | _ => false))

/-- The packet that enters next: the oldest, once its claims are held. While they wait, only one whose own claims an earlier waiting packet
waits for passes it, so that claims cannot deadlock (13 R291; DEDUCED, assumption 97). -/
def landPick (q : HomeSt) : List (Nat × Nat) → List Msg → Option Msg
  | _, [] => none
  | w, m :: r => match m.body with
    | .packet _ _ _ _ u =>
      if !claimWaits q.inbox m.srcHome u && (w.isEmpty || w.any (fun x => claimBlocks q m.srcHome u x.1 x.2)) then some m
      else landPick q (w ++ [(m.srcHome, u)]) r
    | _ => landPick q w r

/-- LANDING_PACKET_ARRIVAL: the next ejected packet enters the landing queue of four, with its claims held. -/
def execLandingPacketArrival (s : State) : Host.Outcome State Fault Refusal :=
  let g := s.focus.tile
  .next (if 4 ≤ s.myTile.e.landQ.length then s
    else match landPick (s.home g) [] (s.home g).inbox with
      | none => s
      | some m => match m.body with
        | .packet a n d row u =>
          (s.modHome g (fun q => { q with inbox := q.inbox.erase m })).modTile g (fun t => t.modEng (fun e => { e with landQ := e.landQ ++
            [⟨a, n, d, row, u, m.src, m.srcHome, m.region, m.handler, m.seq, m.sthr⟩] }))
        | _ => s)

/-- A thread that the debugger or the island has stopped (R335). -/
def Thread.haltedOrStopped (t : Thread) : Bool := t.run.ts == .stopped && (t.run.dbg.halted || t.run.stop.island)

/-- Has the region's HALT reached the landing thread of the tile (21 R427), and has the debugger not resumed it? -/
def State.landHalted (s : State) (g : Nat) : Bool :=
  let q := s.region (s.regionOf g)
  q.dbgEn && q.landHalt && !q.landFree.contains g

/-- Is the tile's landing thread held by a stop of its tile: by a fault, the debugger or the island (01 R6, R335)? -/
def State.landStopped (s : State) (g : Nat) : Bool :=
  let c := (s.tile g).c
  c.stopped || c.landStop || s.landHalted g || (s.thread g 0).haltedOrStopped || (s.thread g 1).haltedOrStopped

/-- t2 does not start while its tile is stopped, due for or under a proofing pass, dead, or without a locked clock (18 R384, R392, R394), nor in
a termination, which aborts the packets (17 R370); a drain lets every packet land (R335, 17 R360). -/
def State.landHeld (s : State) (g : Nat) : Bool :=
  let c := (s.tile g).c
  let ten := (s.region (s.regionOf g)).ten
  c.proofing || c.proofDue || c.dead || c.clkLost || !(s.wafer (waferOf g)).locked || ten == ctxTerminating ||
  (s.landStopped g && ten != ctxDraining)

/-- The state of t2 at the start of a handler. -/
def handlerThread (s : State) (g code : Nat) (p : Packet) : Thread :=
  { r := { pc := s.pcAt g code,
           x := [(10, BitVec.ofNat 64 (s.prefixOf g + p.addr)), (11, BitVec.ofNat 64 p.bytes), (12, BitVec.ofNat 64 p.src)] },
    run := { ts := .running, acq := s.perf } }

/-- HANDLER_START: the head packet's entry of the handler table starts t2, or aborts the packet; a termination aborts it (17 R370). With no
packet, a spill ring in the tile, which the last packets' claims may have held, moves on. -/
def execHandlerStart (s : State) : Host.Outcome State Fault Refusal :=
  let g := s.focus.tile
  let e := s.myTile.e
  .next (match e.landQ with
    | [] => s.ringMoves g
    | p :: rest =>
      let take (s : State) : State := s.modTile g (fun t => t.modEng (fun e =>
        { e with landQ := rest, landNow := some p, landBuf := p.data % 256 ^ p.bytes, landCl := p.bytes }))
      if e.landNow.isSome || (s.thread g 2).run.ts != .idle then s
      else if (s.region (s.regionOf g)).ten = ctxTerminating then (take s).dropPacket g 0x80
      else if s.landHeld g then s
      else
        let v := s.loadAt g (s.myTile.r.lhtbase * 512 + 8 * p.hid) 8
        let s := take s
        if v / 9223372036854775808 = 0 ∨ v % 9223372036854775808 / 131072 ≠ 0 ∨ v % 4 ≠ 0 then s.dropPacket g 0x80
        else s.modThread g 2 (fun _ => handlerThread s g (v % 131072) p))

/-- HANDLER_LIMIT: 4,096 instructions without an end (R325). -/
def execHandlerLimit (s : State) : Host.Outcome State Fault Refusal :=
  let g := s.focus.tile
  .next (if (s.thread g 2).run.ts = .running ∧ 4096 ≤ (s.thread g 2).r.instret then (s.dropPacket g 0x82).idleT2 g else s)

/-! The landing buffer (R327, R328) -/

def bufByte (b i : Nat) : Nat := b / 256 ^ i % 256

def execLld (o : CR) (s : State) : Host.Outcome State Fault Refusal :=
  s.run (.lld o) (fun s =>
    let a := s.getXn o.rs1
    if a % 8 ≠ 0 ∨ 512 ≤ a then s.takeTrap 0x05 0 a
    else (s.putXn o.rd (s.myTile.e.landBuf / 256 ^ a % 18446744073709551616)).retire o.s)

def execLst (o : CR) (s : State) : Host.Outcome State Fault Refusal :=
  s.run (.lst o) (fun s =>
    let a := s.getXn o.rs1
    let d := s.getXn o.rs2
    if a % 8 ≠ 0 ∨ 512 ≤ a then s.takeTrap 0x07 0 a
    else (s.modMyTile (fun t => t.modEng (fun e =>
      { e with landBuf := e.landBuf - e.landBuf / 256 ^ a % 18446744073709551616 * 256 ^ a + d * 256 ^ a,
               landCl := max e.landCl (a + 8) }))).retire o.s)

/-- One bit of CRC-32C, reflected. -/
def crcBit (c : Nat) : Nat := if c % 2 = 1 then (c / 2) ^^^ 0x82F63B78 else c / 2
def crcByte (c b : Nat) : Nat := (List.range 8).foldl (fun c _ => crcBit c) (c ^^^ b)

/-- CRC-32C of buffer bytes [o, o + n). -/
def crc32c (buf o n : Nat) : Nat :=
  ((List.range n).foldl (fun c i => crcByte c (bufByte buf (o + i))) 0xFFFFFFFF) ^^^ 0xFFFFFFFF

def execLcrc (o : CR) (s : State) : Host.Outcome State Fault Refusal :=
  s.run (.lcrc o) (fun s =>
    let a := s.getXn o.rs1
    let n := s.getXn o.rs2
    if 512 < a + n then s.takeTrap 0x05 0 a
    else (s.putXn o.rd (crc32c s.myTile.e.landBuf a n)).retire o.s)

/-! The zero-run codec (R329, R330) -/

/-- A status word. -/
def landStatus (err : Bool) (code used fl out : Nat) : Nat :=
  bit err 63 + code * 281474976710656 + used * 4294967296 + fl * 65536 + out

/-- What the decoder comes to: its output, the input consumed, and the error code. -/
structure Decoded where
  out : Nat
  len : Nat
  used : Nat
  code : Nat
  deriving DecidableEq, Repr

/-- One token at a time, at most one for each input byte. -/
def zeroRun (buf cl lim : Nat) : Nat → Decoded → Decoded
  | 0, d => d
  | fuel + 1, d =>
    if cl ≤ d.used then d
    else
      let t := bufByte buf d.used
      let i := d.used + 1
      if t = 0xFF then { d with used := i }
      else if t ≤ 0x7F ∧ cl < i + t + 1 then { d with used := i, code := 1 }
      else
        let d : Decoded :=
          if t ≤ 0x7F then { d with out := d.out + buf / 256 ^ i % 256 ^ (t + 1) * 256 ^ d.len, len := d.len + t + 1, used := i + t + 1 }
          else { d with len := d.len + (t - 0x7F), used := i }
        if lim < d.len then { d with code := 2 } else zeroRun buf cl lim fuel d

def execLdec (o : CR) (s : State) : Host.Outcome State Fault Refusal :=
  s.run (.ldec o) (fun s =>
    let e := s.myTile.e
    let d := zeroRun e.landBuf e.landCl (min (s.getXn o.rs1) 512) 513 ⟨0, 0, 0, 0⟩
    if d.code ≠ 0 then (s.putXn o.rd (landStatus true d.code d.used 0 d.len)).retire o.s
    else ((s.modMyTile (fun t => t.modEng (fun e => { e with landBuf := d.out, landCl := d.len }))).putXn o.rd
      (landStatus false 0 d.used 0 d.len)).retire o.s)

/-! Conversion (R331) -/

/-- A format code. -/
def landFmt (n : Nat) : VDest :=
  match n with
  | 0 => .fp fp32 | 1 => .fp bf16 | 2 => .fp fp16 | 3 => .fp fpE4m3 | 4 => .fp fpE5m2 | 5 => .fp fpE2m3 | 6 => .fp fpE2m1
  | 7 => .int 8 | 8 => .int 16 | 9 => .int 32 | _ => .int 64

def convertFrom (src d : VDest) (a : Nat) : Nat × Flags :=
  match src with
  | .int w => match d with
    | .int v => let (x, fl) := saturate v (signedBits w a); (wrapBits v x, fl)
    | .fp f => convertOfInt f (signedBits w a)
  | .fp g => match d with
    | .int v => let (y, fl) := convertToInt v (fdecode g a); (wrapBits v y, fl)
    | .fp f => convertTo f (fdecode g a)

/-- Bytes of n elements: a last byte or group of a packed format is filled up. -/
def packedBytes (d : VDest) (n : Nat) : Nat := if d.bits = 6 then (n + 3) / 4 * 3 else (n * d.bits + 7) / 8

def doLcvt (o : CR) (s : State) : State :=
  let f := s.getXn o.rs1
  let k := s.getXn o.rs2
  let e := s.myTile.e
  let src := landFmt f
  let dst := landFmt k
  let n := e.landCl * 8 / src.bits
  let fail (code : Nat) : State := (s.putXn o.rd (landStatus true code 0 0 0)).retire o.s
  if 10 < f ∨ 10 < k ∨ f = k ∨ e.landCl * 8 % src.bits ≠ 0 ∨ (f = 5 ∧ n % 4 ≠ 0) then fail 1
  else if 512 < packedBytes dst n then fail 2
  else
    let r (i : Nat) : Nat × Flags := convertFrom src dst (e.landBuf / 2 ^ (src.bits * i) % 2 ^ src.bits)
    let out := (List.range n).foldr (fun i a => a * 2 ^ dst.bits + (r i).1 % 2 ^ dst.bits) 0
    let fl := (List.range n).foldl (fun x i => x.or (r i).2) Flags.none
    ((s.modMyTile (fun t => t.modEng (fun e => { e with landBuf := out, landCl := packedBytes dst n }))).putXn o.rd
      (landStatus false 0 e.landCl fl.toFxflags (packedBytes dst n))).retire o.s

def execLcvt (o : CR) (s : State) : Host.Outcome State Fault Refusal := s.run (.lcvt o) (doLcvt o)

/-! The end of a handler (R332 to R334) -/

/-- `lcommit`: the buffer becomes the slot's first CL bytes, line by line; the claims fall and the packet counts. -/
def doLcommit (s : State) : State :=
  let g := s.focus.tile
  let e := s.myTile.e
  match e.landNow with
  | none => s.idleT2 g
  | some p =>
    let s := s.storeAt g p.addr (natBytes e.landCl e.landBuf) p.srcHome 3
    let s := s.modTile g (fun t => t.modEng (fun e => { e with landNow := none, landCommits := min (e.landCommits + 1) 4294967295 }))
    let s := s.releaseClaims g p.srcHome p.unit
    (s.answer g p.src p.srcHome p.seq p.sthr 0 (.resp p.unit 0 0 false 0)).idleT2 g

def execLcommit (o : CR) (s : State) : Host.Outcome State Fault Refusal := s.run (.lcommit o) doLcommit

def execLdrop (o : CR) (s : State) : Host.Outcome State Fault Refusal :=
  s.run (.ldrop o) (fun s => (s.dropPacket s.focus.tile (s.getXn o.rs1 % 256)).idleT2 s.focus.tile)

/-- The value of a selector; none for the illegal ones. -/
def linfoValue (s : State) (sel : Nat) : Option Nat :=
  let e := s.myTile.e
  match e.landNow with
  | none => if sel ≤ 6 then some 0 else none
  | some p =>
    match sel with
    | 0 => some p.bytes
    | 1 => some e.landCl
    | 2 => some (s.prefixOf s.focus.tile + p.addr)
    | 3 => some p.src
    | 4 => some p.row
    | 5 => some p.region
    | 6 => some p.hid
    | _ => none

def execLinfo (o : CR) (s : State) : Host.Outcome State Fault Refusal :=
  s.run (.linfo o) (fun s => match linfoValue s o.rs1 with
    | some v => (s.putXn o.rd v).retire o.s
    | none => s.illegal)

/-! LAND_STAT and LAND_CNT (R336) -/

def State.clearLandStat (s : State) : State :=
  s.modMyTile (fun t => t.modEng (fun e => { e with landErr := false }))

def execLandStatClear (s : State) : Host.Outcome State Fault Refusal := .next (s.clearLandStat)

def landStatWord (e : Engines) : Nat := bit e.landErr 63 + e.landCode % 256 * 2 ^ 48 + e.landHid % 64 * 2 ^ 42 + e.landSrc % 2 ^ 34
def landCntWord (e : Engines) : Nat := e.landDrops * 4294967296 + e.landCommits

def execLandCntRead (s : State) : Host.Outcome State Fault Refusal :=
  .next ({ s with ioRead := landCntWord s.myTile.e }.modMyTile (fun t =>
    t.modEng (fun e => { e with landDrops := 0, landCommits := 0 })))

end Sys2Proof.Machine
end

