-- ==== Sys2Proof/Machine/VectorMem.lean ====
section
/-!
DEFINITION. Vector memory instructions (05 R122 to R126): two passes of checks over the active elements, then one access for each.
-/
namespace Sys2Proof.Machine

/-- Address of element i (05 R123). -/
def unitAddr (o : CV) (s : State) (i : Nat) : Nat :=
  let b := etBytes o.et
  let e := s.member * (64 / b) + i
  (s.getX o.f1 + BitVec.ofNat 64 e * (if o.f2 = 0 then BitVec.ofNat 64 b else s.getX o.f2)).toNat

def offsetAddr (o : CV) (s : State) (i : Nat) : Nat :=
  (s.getX o.f1 + BitVec.ofNat 64 (elem (s.vN (o.f2 + i / 16)) 4 (i % 16))).toNat

/-- Active elements with their addresses, in ascending order. -/
def activeAddrs (o : CV) (s : State) (addr : Nat → Nat) : List (Nat × Nat) :=
  ((List.range (64 / etBytes o.et)).filter (active (s.pN o.pg) (etBytes o.et))).map (fun i => (i, addr i))

/-- What the two passes find (05 R124). -/
inductive VCheck where
  | trap (cause sub addr : Nat)
  | walk (addr : Nat)
  | ok (l : List (Nat × Nat × Place))
  deriving DecidableEq, Repr

/-- The first pass: path, window, bounds and alignment. -/
def firstPass (s : State) (b : Nat) (k : WinKind) (l : List (Nat × Nat)) : Option (Nat × Nat) :=
  l.findSome? (fun p => (checkAccess s s.focus.tile s.focus.thread p.2 b k).map (fun c => (c, p.2)))

/-- The second pass: translation. -/
def secondPass (s : State) (b : Nat) (k : WinKind) : List (Nat × Nat) → VCheck
  | [] => .ok []
  | (i, a) :: r =>
    match if pathOf a = 1 then XlRes.place (placeOfTileAddr a) else translate s s.focus.tile s.me.run.xl a b k.acc with
    | .walk => .walk a
    | .miss sub => .trap 0x18 sub a
    | .place p => match secondPass s b k r with
      | .ok l => .ok ((i, a, p) :: l)
      | x => x

def vCheck (s : State) (b : Nat) (k : WinKind) (l : List (Nat × Nat)) : VCheck :=
  match firstPass s b k l with
  | some (c, a) => .trap c 0 a
  | none => match secondPass s b k l with
    | .ok ps =>
      -- a read of a poisoned granule of the own tile (16 R351)
      match if k.isWrite then none else ps.find? (fun p => p.2.2.home = s.focus.tile ∧ poisonedAt s p.2.2.home p.2.2.addr b) with
      | some p => .trap 0x21 0 (p.2.1 / 8 * 8)
      | none => .ok ps
    | x => x

/-- One element's request. The lane field is 16 · byte lane + size. -/
def elemReq (op : ReqOp) (b i a : Nat) (p : Place) (data id : Nat) : MemReq :=
  { mkReq op p b data a with lane := 16 * (b * i) + b, id := id }

/-- An instruction's accesses in progress: those left to answer, and the elements gathered. -/
structure VRun where
  parts : List OutPart
  buf : VWord
  seen : Nat
  deriving DecidableEq, Repr

/-- One element's access: performed at once at the own home with nothing before it, else sent. -/
def elemAccess (b id : Nat) (op : ReqOp) (data : Nat → Nat) (wr : Nat) (x : State × VRun) (e : Nat × Nat × Place) : State × VRun :=
  let (s, v) := x
  let (i, a, p) := e
  let g := s.focus.tile
  let h := s.focus.thread
  let q := elemReq op b i a p (data i) id
  if ownNow s g h b p (classOf a p wr) then
    let n := s.readFrom g q
    let (s', val) := doReq s g (reqMsg s g h p q) q
    (s', { v with seen := max v.seen n, buf := if wr = clsR then vPutBytes v.buf (b * i) b val else v.buf })
  else (s.sendReq g h p q a (classOf a p wr), { v with parts := v.parts ++ [⟨p.home, classOf a p wr, q.lane⟩] })

/-- The lanes of a gathered register join the others of the register as it stands (05 R102): lane is 16 · byte lane + size. -/
def mergeLanes (v buf : VWord) (lanes : List Nat) : VWord :=
  lanes.foldl (fun v l => vPutBytes v (l / 16) (l % 16) (buf.toNat / 256 ^ (l / 16))) v

/-- The accesses of the whole instruction. `vd` is written by a load, in its active elements. -/
def vAccess (s : State) (b : Nat) (op : ReqOp) (data : Nat → Nat) (wr : Nat) (vd : Option Nat) (l : List (Nat × Nat × Place)) : State :=
  let g := s.focus.tile
  let id := s.myTile.e.nextId
  let lanes := l.map (fun e => 16 * (b * e.1) + b)
  let s := s.modMyTile (fun t => t.modEng (fun e => { e with nextId := id + 1 }))
  let (s, v) := l.foldl (elemAccess b id op data wr) (s, ⟨[], 0, 0⟩)
  let s := match vd with | some r => s.modThread g 0 (·.readOf g clsR (.v r 0) v.seen) | none => s
  if v.parts.isEmpty then (match vd with | some r => s.putV r (mergeLanes (s.getV r) v.buf lanes) | none => s)
  else
    let t := s.me
    s.modMe (fun t' => t'.modRun (fun r => { r with outs := r.outs ++
      [{ id := id, parts := v.parts, dst := match vd with | some r => .v r v.buf | none => .nowhere, aq := false, pc := t.r.pc,
         word := s.focus.word, flats := l.map (fun e => (16 * (b * e.1) + b, e.2.1)), issued := s.now, posted := vd.isNone, rep := t.repMark }] }))

/-- The course of a vector memory instruction. -/
def doVMem (o : CV) (k : WinKind) (addr : State → Nat → Nat) (s : State) : State :=
  let b := etBytes o.et
  if s.me.held then s.waitHere
  else match vCheck s b k (activeAddrs o s (addr s)) with
    | .trap c sub a => s.takeTrap c sub a
    | .walk a => (s.askWalk s.focus.tile ⟨s.focus.thread, 0, a, k.acc, b⟩).waitHere
    | .ok l =>
      if l.any (fun e => mqConflict s e.2.2 b k.isWrite) ∨
        (l.any (fun e => !ownNow s s.focus.tile s.focus.thread b e.2.2 (classOf e.2.1 e.2.2 k.cls)) ∧ !s.roomToIssue s.focus.tile 0) then s.waitHere
      else if k.isWrite then
        let d := s.vN o.fd
        (vAccess s b .store (elem d b) clsW none l).retire o.s
      else (vAccess s b (.load false) (fun _ => 0) clsR (some o.fd) l).retire o.s

def execVld (o : CV) (s : State) : Host.Outcome State Fault Refusal := s.vector (.vld o) (doVMem o .vload (unitAddr o))
def execVst (o : CV) (s : State) : Host.Outcome State Fault Refusal := s.vector (.vst o) (doVMem o .vstore (unitAddr o))
def execVgath (o : CV) (s : State) : Host.Outcome State Fault Refusal := s.vector (.vgath o) (doVMem o .vload (offsetAddr o))
def execVscat (o : CV) (s : State) : Host.Outcome State Fault Refusal := s.vector (.vscat o) (doVMem o .vstore (offsetAddr o))

end Sys2Proof.Machine
end

