-- ==== Sys2Proof/Machine/Answers.lean ====
section
/-!
DEFINITION. What a tile does with the answers to its requests (01 R22, 07 R169, 13 R281, 16 R338, R345), with errors, and with the
events that let a waiting thread go on (07 R173, 19 R403).
-/
namespace Sys2Proof.Machine

/-! Deferred faults (16 R338) -/

/-- An access is given up, with what of it has not been injected; returns that waited for it may leave (10 R243). -/
def State.cutOut (s : State) (g h id : Nat) : State :=
  ((s.modThread g h (fun t => t.modRun (fun r => { r with outs := r.outs.filter (fun x => x.id != id) }))).modTile g (fun t =>
    t.modEng (fun e => { e with unsent := e.unsent.filter (fun u => !(match u.msg.body with | .mem q => q.id == id | _ => false)) }))).flushReturns g

/-- The error of an outstanding access: the thread stops where it stands, also when something else has stopped it. After an earlier failed
access of the thread, or of an ended task, it is a report with THREAD 3. -/
def State.deferredFault (s : State) (g h : Nat) (o : Out) (cause sub addr : Nat) : State :=
  let s := s.cutOut g h o.id
  if (s.thread g h).run.accFailed || o.dst == .gone then s.reportTile g cause sub addr
  else (s.modThread g h (fun t => t.modRun (fun r => { r with accFailed := true }))).trapSoon g h ⟨cause, sub, addr, o.pc, o.word, false, o.rep⟩

/-- The outstanding access with a number, and its thread. -/
def State.outOf (s : State) (g id : Nat) : Option (Nat × Out) :=
  ([0, 1] : List Nat).findSome? (fun h => ((s.thread g h).run.outs.find? (fun o => o.id == id)).map (fun o => (h, o)))

def State.modOut (s : State) (g h id : Nat) (f : Out → Out) : State :=
  s.modThread g h (fun t => t.modRun (fun r => { r with outs := r.outs.map (fun o => if o.id = id then f o else o) }))

/-- The access is complete: an acquire is an o refresh point (13 R285), and returns that waited for it may leave (10 R243). -/
def State.completed (s : State) (g h : Nat) (o : Out) : State :=
  (((s.modThread g h (fun t => t.modRun (fun r => { r with outs := r.outs.filter (fun x => x.id != o.id) }))).acquireDone g h o.aq 0).flushReturns g).stopDue g h

/-- What is still awaited of an access after the answer for a lane. -/
def Out.without (o : Out) (lane : Nat) : List OutPart := o.parts.eraseP (fun p => p.lane == lane)

/-- One answer of an access has arrived; with the last one it is complete. -/
def State.answered (s : State) (g h : Nat) (o : Out) (lane : Nat) : State :=
  if (o.without lane).isEmpty then s.completed g h o
  else (s.modOut g h o.id (fun o => { o with parts := o.without lane })).stopDue g h

def Out.flatAt (o : Out) (lane : Nat) : Nat :=
  match o.flats.find? (fun p => p.1 == lane) with
  | some p => p.2
  | none => (o.flats.headD (0, 0)).2

/-- The lower of two failed elements: address, cause, SUB. -/
def worse (a : Option (Nat × Nat × Nat)) (b : Nat × Nat × Nat) : Nat × Nat × Nat :=
  match a with
  | some x => if x.1 ≤ b.1 then x else b
  | none => b

/-- An element of a vector load has failed: the fault is taken with the last answer, for the lowest failing element (16 R339). Any other access
fails at once. -/
def State.failAt (s : State) (g h : Nat) (o : Out) (lane cause sub addr : Nat) : State :=
  let x := worse o.bad (addr, cause, sub)
  match o.dst with
  | .v _ _ =>
    if (o.without lane).isEmpty then s.deferredFault g h o x.2.1 x.2.2 x.1
    else (s.modOut g h o.id (fun o => { o with bad := some x })).answered g h o lane
  | _ => s.deferredFault g h o cause sub addr

/-- The home and class of a part of an access. -/
def Out.partAt (o : Out) (lane : Nat) : Nat × Nat :=
  match o.parts.find? (fun p => p.lane == lane) with | some p => (p.home, p.cls) | none => (0, 0)

/-- A value for an outstanding access. A vector register takes its active lanes with the last of them (05 R102), unless one has failed. -/
def State.valueArrives (s : State) (g h : Nat) (o : Out) (lane v : Nat) (at_ : Nat) : State :=
  let p := o.partAt lane
  let s := if o.dst.silent then s else s.modThread g h (·.readOf p.1 p.2 o.dst at_)
  let s := if o.aq then s.modThread g h (·.acquired at_) else s
  match o.dst with
  | .v vd buf =>
    let buf := vPutBytes buf (lane / 16) (lane % 16) v
    if (o.without lane).isEmpty then
      if let some x := o.bad then s.deferredFault g h o x.2.1 x.2.2 x.1
      else (s.modTile g (fun t => t.putV vd (mergeLanes (t.r.getV vd) buf (o.flats.map (fun p => p.1))))).completed g h o
    else (s.modOut g h o.id (fun o => { o with dst := .v vd buf })).answered g h o lane
  | .watch =>
    let s := (applyDst s g h .watch v).answered g h o lane
    if (s.lookAt g h).waitsWord then
      let f := s.focus
      let s := (s.lookAt g h).atWait doWaitFor
      { s with focus := f }
    else s
  | d => (applyDst s g h d v).answered g h o lane

/-! The copy engine's answers (15 R317, R320, 16 R347) -/

/-- A request of the engine is abandoned: no further unit, no increment, its share back to the root, its slot free. -/
def State.abandonCopy (s : State) (g serial : Nat) : State :=
  match s.entryOf g serial with
  | none => s
  | some c => (s.dropEntry g serial).hwReturnAll g c.dom c.share

/-- A source read of a unit is answered. Uncorrectable data stop the pushing thread and abandon the request. -/
def State.fetched (s : State) (g : Nat) (u : CopyUnit) (lane v : Nat) (poisoned : Bool) : State :=
  let s :=
    if poisoned then
      let s := s.modUnit g u.id (fun u => { u with left := u.left - 1, failed := true })
      match s.entryOf g u.serial with
      | none => s
      | some c =>
        let a := match u.srcs.find? (fun p => p.1 == lane) with | some p => p.2 | none => 0
        (s.abandonCopy g c.serial).trapSoon g c.thread ⟨0x21, 2, a / 8 * 8, c.pc, c.word, true, 0⟩
    else s.modUnit g u.id (fun u => { u with left := u.left - 1, data := u.data + v * 256 ^ lane })
  match (s.tile g).e.units.find? (fun x => x.id == u.id) with
  | some u => s.sendUnit g u
  | none => s

/-! MEMORY_RESPONSE -/

/-- MEMORY_RESPONSE: the oldest response at the tile in focus, but for the acknowledgement of an increment. One that nothing awaits any
more is dropped. -/
def execMemoryResponse (s : State) : Host.Outcome State Fault Refusal :=
  let g := s.focus.tile
  let mine (m : Msg) : Bool := match m.body with | .resp id _ _ _ _ => (s.increments g id).isNone | _ => false
  .next (match takeMsg mine (s.home g).inbox with
    | none => s
    | some (m, rest) => match m.body with
      | .resp id lane v poisoned at_ =>
        let s := s.modHome g (fun q => { q with inbox := rest })
        match s.outOf g id with
        | some (h, o) =>
          if poisoned ∧ !o.dst.silent then s.failAt g h o lane 0x21 (if m.srcHome = g then 0 else 1) (o.flatAt lane / 8 * 8)
          else if poisoned then s.answered g h o lane
          else s.valueArrives g h o lane v at_
        | none => match (s.tile g).e.units.find? (fun u => u.id == id) with
          | some u => if u.sent then s.dropUnit g id else s.fetched g u lane v poisoned
          | none => s
      | _ => s)

/-! ERROR_MESSAGE (07 R169) -/

/-- `errword` of a thread receives an error (01 R14). An error for another region than the tile's is not recorded. -/
def State.recordError (s : State) (g h : Nat) (m : Msg) (cause name : Nat) : State :=
  if m.region ≠ s.regionIdOf g then s
  else s.modThread g h (fun t => t.modRegs (fun r =>
    { r with errword := if r.errword.v then { r.errword with ovf := true } else { v := true, ovf := false, cause := cause, name := name } }))

/-- A refused copy request: recorded once, at the thread that pushed it. -/
def State.copyRefused (s : State) (g serial : Nat) (m : Msg) (cause name : Nat) : State :=
  match s.entryOf g serial with
  | none => s
  | some c => (s.recordError g c.thread m cause name).abandonCopy g serial

/-- A refused message of a unit: a source read counts as answered; data that were refused are followed by a release of the claims. A refused record
is reported as a task record (07 R169), also where its name is stale (DEDUCED, assumption 115). -/
def State.unitRefused (s : State) (g : Nat) (u : CopyUnit) (m : Msg) (reason name kind : Nat) (fetch : Bool) : State :=
  let s := s.copyRefused g u.serial m (if kind = 2 then (if reason = 1 then 6 else 4) else if reason = 1 then 3 else 5) name
  if kind = 2 ∨ (kind = 5 ∧ u.failed) then s.dropUnit g u.id
  else
    let s := s.modUnit g u.id (fun u => { u with left := (if fetch then u.left - 1 else u.left), failed := true,
                                                 sent := (if kind = 5 then false else u.sent) })
    match (s.tile g).e.units.find? (fun x => x.id == u.id) with
    | some u => s.sendUnit g u
    | none => s

/-- The outcome of an error at the source; `q` is the refused header. The island is told of refused writes, borrows and hardware messages. -/
def State.errorAt (s : State) (g : Nat) (m : Msg) (reason : Nat) (q : Header) (id lane : Nat) (awaited : Bool) (cls : Nat) : State :=
  let h := m.sthr
  let name := q.dst
  let tell (s : State) : State := s.notice (islandOf g) reason name
  match q.kind with
  | 0 | 1 =>
    let s := s.recordError g h m (if reason = 1 then 2 else 5) name
    -- the error also completes a window 7 store (13 R281)
    match if cls = 5 then s.outOf g id else none with
    | some (th, o) => s.answered g th o lane
    | none => s
  | 2 | 5 =>
    match if cls = 2 then (s.tile g).e.units.find? (fun u => u.id == id) else none with
    | some u => s.unitRefused g u m reason name q.kind false
    | none => if q.kind = 2 ∧ cls ≠ 2 then s.recordError g h m (if reason = 1 then 6 else 4) name else s
  | 3 =>
    if cls = 2 then
      match (s.tile g).e.units.find? (fun u => u.id == id) with
      | some u => s.unitRefused g u m reason name 3 awaited
      | none => s
    else if cls = 3 then
      match s.increments g id with
      | some c => s.copyRefused g c.serial m (if reason = 1 then 3 else 5) name
      | none => s
    else match s.outOf g id with
      | some (th, o) =>
        if awaited ∧ !o.dst.silent then s.failAt g th o lane 0x05 reason (o.flatAt lane)
        else if awaited then s.answered g th o lane
        else (tell (s.recordError g th m (if reason = 1 then 1 else 5) name)).answered g th o lane
      | none => s
  | 7 => tell (if q.aux / 16384 = 0 then s.answerGive g id lane .refused 0 else s)
  | _ => tell s

/-- The homes at the coordinate of a router: its tile, an island, the edge ports of its sides. -/
def homesOf (g : Nat) : List Nat := (([4, 0, 1, 2, 3] : List Nat).map (homesAt g)).flatten

/-- ERROR_MESSAGE: the oldest error message at the tile in focus, or at the island or an edge port of its coordinate, of which the island is
told. -/
def execErrorMessage (s : State) : Host.Outcome State Fault Refusal :=
  let g := s.focus.tile
  .next (match (homesOf g).findSome? (fun h => (takeMsg (fun m => m.kind == 8) (s.home h).inbox).map (fun x => (h, x))) with
    | none => s
    | some (h, m, rest) => match m.body with
      | .error reason q id lane awaited cls =>
        let s := s.modHome h (fun k => { k with inbox := rest })
        if isTileHome h then s.errorAt g m reason q id lane awaited cls else s.notice (islandAt h) reason q.dst
      | _ => s)

/-- The parts of an access that have been injected and not answered. -/
def State.flown (s : State) (g : Nat) (o : Out) : List OutPart :=
  o.parts.filter (fun x => !(s.tile g).e.unsent.any (fun u => match u.msg.body with
    | .mem q => q.id == o.id && q.lane == x.lane
    | _ => false))

/-- The lowest address of the parts of an access (16 R339). -/
def Out.lowest (o : Out) (l : List OutPart) : Nat :=
  match l.map (fun p => o.flatAt p.lane) with
  | [] => o.flatAt 0
  | a :: r => r.foldl min a

/-- ACCESS_TIMEOUT: an access without its answer 1,048,576 ns after its injection (16 R345). A read takes a deferred fault, which for an ended task
is a report; an acknowledgement counts as arrived. -/
def execAccessTimeout (id : Nat) (s : State) : Host.Outcome State Fault Refusal :=
  let g := s.focus.tile
  .next (match s.outOf g id with
    | none => s
    | some (h, o) =>
      let l := s.flown g o
      if l.isEmpty ∨ s.now < o.issued + 1048576 then s
      else if o.dst = .nowhere then
        let rest := o.parts.filter (fun x => !l.contains x)
        ((if rest.isEmpty then s.completed g h o else s.modOut g h id (fun o => { o with parts := rest })).reportTile g 0x07 0x80 (o.lowest l))
      else
        let x := worse o.bad (o.lowest l, 0x05, 0x80)
        s.deferredFault g h o x.2.1 x.2.2 x.1)

/-! Sleeping at the mesh (07 R173, R176, 08 R192) -/

/-- The body of an instruction that sleeps for a port, a stream or the router. -/
def meshBody (i : Instr) : Option (State → State) :=
  match i with
  | .madd o => some (doPort .add o)
  | .msub o => some (doPort .sub o)
  | .mand o => some (doPort .and o)
  | .mor o => some (doPort .or o)
  | .mxor o => some (doPort .xor o)
  | .msll o => some (doPort .sll o)
  | .msrl o => some (doPort .srl o)
  | .msra o => some (doPort .sra o)
  | .mmin o => some (doPort .min o)
  | .mmax o => some (doPort .max o)
  | .mminu o => some (doPort .minu o)
  | .mmaxu o => some (doPort .maxu o)
  | .mmov o => some (doPort .mov o)
  | .mfadd o => some (doPort .fadd o)
  | .mfmul o => some (doPort .fmul o)
  | .mfmax o => some (doPort .fmax o)
  | .send o => some (doSend o (fun s => [s.getX o.rs2]))
  | .sendv o => some (doSend o (fun s => vWords (s.getV o.rs2)))
  | .spawnt o => some (doSpawnt o)
  | _ => none

/-- PORT_STREAM_WAKE: what the thread in focus sleeps for is there, and its instruction takes effect. -/
def execPortStreamWake (s : State) : Host.Outcome State Fault Refusal :=
  .next (match s.me.run.ts, s.me.run.wait with
    | .sleeping, some w => if w.kind ≤ 1 then s.asleepAt meshBody else s
    | _, _ => s)

/-! Wakes of the wide units (19 R402 to R404) -/

/-- The units an instruction needs, vector and matrix. -/
def unitsNeeded (s : State) (i : Instr) : Bool × Bool :=
  match i with
  | .pwrhint o => (decide (1 ≤ s.getXn o.rs1), decide (33 ≤ s.getXn o.rs1))
  | i => (true, (mKind i).isSome)

/-- WAKE_ADMISSION: the stalled wake of the thread in focus finds room in the present step; its instruction issues when the thread runs. -/
def execWakeAdmission (s : State) : Host.Outcome State Fault Refusal :=
  let g := s.focus.tile
  let h := s.focus.thread
  .next (if s.stalls g h then
      s.whenAt (fun i => some (fun s => (s.wakeUnits g h (unitsNeeded s i).1 (unitsNeeded s i).2).1))
    else s)

end Sys2Proof.Machine
end

