-- ==== Sys2Proof/Machine/Shoot.lean ====
section
/-!
DEFINITION. Translation walks and shootdowns (12 R274 to R279, 14 R304).
-/
namespace Sys2Proof.Machine

/-- A walk's result with the last check of R274: only an access that it serves fills an entry (R276). -/
def walkResult (s : State) (g : Nat) (w : Walk) : WalkRes :=
  match walkFor s g w.addr w.kind with
  | .entry x => match placeCheck s g w.addr (x.pa (w.addr % 144115188075855872)) w.size w.kind with
    | .miss sub => .miss sub
    | _ => .entry x
  | r => r

/-- The miss of a walk: of an access that a restored thread replays, of the instruction that waits, or of a copy. -/
def State.walkMissed (s : State) (g : Nat) (w : Walk) (sub : Nat) : State :=
  if w.thread < 3 then
    match (s.tile g).e.unsent.find? (fun u => u.replay && u.msg.sthr == w.thread && u.flat == w.addr) with
    | some u => (s.modTile g (fun t => t.modEng (fun e => { e with unsent := e.unsent.erase u }))).failReplay g u.msg u.flat sub
    | none =>
      let f := s.focus
      let s := match issue (s.lookAt g w.thread) with
        | .go s' _ => s'.takeTrap 0x18 sub w.addr
        | .wait _ => s
      { s with focus := f }
  else match s.entryOf g w.entry with
    | some c => (s.dropEntry g c.serial).trapSoon g c.thread ⟨0x18, sub, w.addr, c.pc, c.word, true, 0⟩
    | none => s

/-- TRANSLATION_WALK: a walk of the tile in focus completes. It fills the cache and serves the access that waits for it, or it ends in a
miss: the trap of the waiting instruction, or of the copy's thread. It waits while a table entry lies in a claimed line. -/
def execTranslationWalk (index : Nat) (s : State) : Host.Outcome State Fault Refusal :=
  let g := s.focus.tile
  let ws := s.myTile.e.walks
  .next (match ws[index]? with
    | none => s
    | some w =>
      let out := s.modMyTile (fun t => t.modEng (fun e => { e with walks := e.walks.eraseIdx index }))
      match walkResult s g w with
      | .busy => s
      | .entry x =>
        let s := out.modMyTile (fun t => t.modEng (fun e => { e with xlat := fillXlat e.xlat x }))
        if w.thread < 3 then s.modThread g w.thread (fun t => t.modRun (fun r => { r with xl := r.xl ++ [x] }))
        else s.modEntry g w.entry (fun c => { c with xl := c.xl ++ [x] })
      | .miss sub => out.walkMissed g w sub)

/-! Invalidation (R277, R278) -/

/-- The registers of an island's set: WXLAT_INV as a doubleword. -/
def wxlatInvWord (i : Island) : Nat :=
  bit i.invBusy 63 + bit i.invDone 62 + bit i.invIe 19 + i.invScope * 131072 + i.invAsid

/-- The tiles that a request is sent to: those of the regions of the ASID, or of the whole wafer. -/
def invTiles (s : State) (w scope asid : Nat) : List Nat :=
  (s.tiles.map (fun (p : Nat × Tile) => p.1)).filter (fun g =>
    waferOf g == w && (decide (2 ≤ scope) || (s.region (s.regionOf g)).asid == asid))

/-- A write of WXLAT_INV. One with GO while the request before it is in progress is ignored whole. -/
def writeWxlatInv (s : State) (island v : Nat) : State :=
  let i := s.island island
  let go := v / 65536 % 2 = 1
  if go ∧ i.invBusy then s
  else
    let scope := v / 131072 % 4
    let asid := v % 65536
    let s := s.modIsland island (fun i =>
      { i with invIe := v / 524288 % 2 == 1, invScope := scope, invAsid := asid, invDone := i.invDone && v / 2 ^ 62 % 2 == 0 })
    if go then
      s.modIsland island (fun i => { i with invBusy := true, invReq := some (scope, asid, i.invVa, i.invN), invTold := [],
                                            invWait := invTiles s (island / 48) scope asid })
    else s

def execWxlatInvGo (island value : Nat) (s : State) : Host.Outcome State Fault Refusal := .next (writeWxlatInv s island value)

/-- Does a request cover an address of a tile's region? -/
def reqCovers (s : State) (g : Nat) (removed : List XlEntry) (r : Nat × Nat × Nat × Nat) (a : Nat) : Bool :=
  let q := s.region (s.regionOf g)
  let va := a % 144115188075855872
  (pathOf a == 0 || pathOf a == 2) &&
  (removed.any (fun e => e.covers (s.regionOf g) q.asid va) || invCovers r.1 r.2.1 r.2.2.1 r.2.2.2 ⟨s.regionOf g, q.asid, va / 4096, 0, 0, true, true⟩)

/-- A waiter whose translation is gone runs again from a fresh read (14 R304). -/
def State.rewait (s : State) (g h : Nat) : State :=
  ((s.dropWatches g h).dropWatchReads g h).modThread g h (fun t => t.wake.modRun (fun r =>
    { r with phase := 0, phaseVal := 0, answer := none, outs := r.outs.filter (fun o => o.dst != .watch) }))

/-- Step 2 of R278 at a tile: matching entries go, and with them what waiting instructions hold of them. -/
def State.forget (s : State) (g : Nat) (r : Nat × Nat × Nat × Nat) : State :=
  let hit (e : XlEntry) : Bool := invCovers r.1 r.2.1 r.2.2.1 r.2.2.2 e
  let keep (l : List XlEntry) : List XlEntry := l.filter (fun e => !hit e)
  let removed := (s.tile g).e.xlat.filter hit
  let s := s.modTile g (fun t => t.modEng (fun e =>
    { e with xlat := keep e.xlat, copies := e.copies.map (fun c => { c with xl := keep c.xl }) }))
  ([0, 1] : List Nat).foldl (fun s h =>
    let s := s.modThread g h (fun t => t.modRun (fun q => { q with xl := keep q.xl }))
    let t := s.thread g h
    let reads := t.run.outs.any (fun o => o.dst == .watch && reqCovers s g removed r (o.flatAt 0))
    let slept := match t.run.wait with | some w => (s.lookAt g h).waitsWord && reqCovers s g removed r w.addr | none => false
    -- a first read that has been answered and not judged is made again
    if reads || slept || (t.run.phase == inFirstRead && t.run.answer.isSome) then s.rewait g h else s) s

/-- Accesses of a tile that may have used a removed entry. -/
def outsDrained (s : State) (g : Nat) : Bool :=
  ([0, 1] : List Nat).all (fun h => (s.thread g h).run.outs.all (fun o => o.flats.all (fun p => pathOf p.2 == 1)))

/-- TILE_INVALIDATION: the tile removes the entries, waits for what used them, and acknowledges. A unit of a copy whose home has died
cannot drain: the tile reports instead. -/
def execTileInvalidation (island tile : Nat) (s : State) : Host.Outcome State Fault Refusal :=
  let i := s.island island
  .next (match i.invReq with
    | none => s
    | some r =>
      if !i.invWait.contains tile then s
      else
        let s := if i.invTold.contains tile then s
          else (s.forget tile r).modIsland island (fun i => { i with invTold := i.invTold ++ [tile] })
        match (s.tile tile).e.units.find? (fun u => isTileHome u.home && (s.tile u.home).c.dead) with
        | some u =>
          -- one report of the undrained line for each request
          let mark := tile + 4294967296
          if (s.island island).invTold.contains mark then s
          else (s.modIsland island (fun i => { i with invTold := i.invTold ++ [mark] })).reportTile tile 0x25 0
            (match s.entryOf tile u.serial with | some c => c.dst (u.row * cqE0 c.w2) | none => (u.srcs.headD (0, 0)).2)
        | none =>
          if !(s.tile tile).e.units.isEmpty || !outsDrained s tile then s
          else s.modIsland island (fun i => { i with invWait := i.invWait.filter (· != tile) }))

/-- INVALIDATION_DONE: every tile has acknowledged. The interrupt follows IE as it stands then; the rule does not say whether GO captures it (12
R278; DESIGN CHOICE, assumption 131). -/
def execInvalidationDone (island : Nat) (s : State) : Host.Outcome State Fault Refusal :=
  let i := s.island island
  .next (if i.invBusy && i.invWait.isEmpty then
      let s := s.modIsland island (fun i => { i with invBusy := false, invDone := true, invReq := none, invTold := [] })
      if i.invIe then s.notice island 0x45 island else s
    else s)

def execWxlatInvDoneClear (island : Nat) (s : State) : Host.Outcome State Fault Refusal :=
  .next (s.modIsland island (fun i => { i with invDone := false }))

end Sys2Proof.Machine
end

