-- ==== Sys2Proof/Machine/Slices.lean ====
section
/-!
DEFINITION. Edge memory as islands, hosts and the ports themselves reach it (17 R374, 20 R407, R411, R412): coherent reads and writes, and
the move of a memory slice.
-/
namespace Sys2Proof.Machine

/-! The host window (20 R412) -/

/-- The ranges of edge memory that a host reaches: those of the wafer's host window, or, through a virtual function's BAR2, those of its bound
region (17 R376). -/
def State.hostRanges (s : State) (wafer : Nat) (vf : Option Nat) : List (Nat × Nat) :=
  match vf with
  | none => (s.wafer wafer).hostWin
  | some v => match boundRegion s wafer v with
    | some r => (s.region r).hostWin
    | none => []

/-- HOST_WINDOW_ACCESS: a read, whose value `ioRead` holds, or a write of `len` bytes. It waits for a claim, and finds nothing beyond a
module or outside the window. -/
def execHostWindowAccess (wafer : HostFn) (pa len : Nat) (write : Option Nat) (s : State) : Host.Outcome State Fault Refusal :=
  .next (if !(s.hostRanges wafer.wafer wafer.vf).any (fun x => decide (x.1 ≤ pa) && decide (pa + len ≤ x.1 + x.2)) || !edgeExists pa len ||
      edgeClaimed s wafer.wafer pa len then s
    else match write with
      | some d => edgeWrite s wafer.wafer pa (natBytes len d)
      | none => { s with ioRead := bytesNat (edgeRead s wafer.wafer pa len) })

/-- Island 0 opens ranges of edge memory to the host: of the wafer, or of a region's virtual function; and assigns a virtual function to a
link. The spec gives these choices no register (DESIGN CHOICE, assumption 129). -/
def State.openHost (s : State) (wafer : Nat) (region : Option Nat) (l : List (Nat × Nat)) : State :=
  match region with
  | none => s.modWafer wafer (fun k => { k with hostWin := l })
  | some id => s.modRegion (wafer * 256 + id % 256) (fun q => { q with hostWin := l })

def State.assignVf (s : State) (wafer vf link : Nat) : State :=
  if vf < 64 ∧ link < 4 then s.modWafer wafer (fun k => { k with vfLink := k.vfLink.put vf link }) else s

/-- A BAR0 mailbox: bytes that the host and island 0 both read and write, 64 KiB of a physical function, 4 KiB of a virtual one. What they say to
each other there is theirs (assumption 129). BOOT_STAT, at the start of a physical one, is read as a register. -/
def State.useMailbox (s : State) (wafer fn off len : Nat) (write : Option Nat) : State :=
  let size := if fn < 4 then 65536 else 4096
  let from_ := if fn < 4 then 8 else 0
  let k := 65536 * fn + off
  if (s.wafer wafer).bootSafe || decide (68 ≤ fn) || decide (off < from_) || decide (size < off + len) then s
  else match write with
    | some d => s.modWafer wafer (fun w => { w with mail := w.mail.writeNat k len d })
    | none => { s with ioRead := (s.wafer wafer).mail.readNat k len }

/-! Moving a slice (17 R374) -/

/-- SLICE_MOVE_START: V = 1 and FWD = 0 written to an entry of a port's forwarding table. -/
def execSliceMoveStart (home entry chunk target : Nat) (s : State) : Host.Outcome State Fault Refusal :=
  .next (if !isEdgeHome home ∨ 64 ≤ entry then s
    else
      let f : Forward := { v := true, chunk := chunk % 32768, target := target % 72057594037927936 / 2097152 * 2097152 }
      s.modHome home (fun h => { h with forwards := h.forwards.put entry f }))

/-- SLICE_MOVE_LINE: the next line of the chunk, once no claim covers it there or at its new home. The grant of the port's own claim
removes the reservations of the line; the mark wakes its watches. -/
def execSliceMoveLine (home entry : Nat) (s : State) : Host.Outcome State Fault Refusal :=
  .next (match (s.home home).forwards.find entry with
    | none => s
    | some f =>
      if !f.v ∨ f.fwd then s
      else
        let a := f.chunk * 2097152 + 64 * f.moved
        let q := f.target + 64 * f.moved
        let to_ := edgeHome (homeWafer home) (q / 68719476736 % 128)
        let b := q % 68719476736
        if s.claimed home a 64 || s.claimed to_ b 64 then s
        else
          let s := (s.storeAt to_ b (s.mem.readBytes (homeKey home a) 64) (tileOf (homeWafer home) 0 0) 3).touched home a 64
          let f := { f with moved := f.moved + 1, fwd := decide (f.moved + 1 = 32768) }
          s.modHome home (fun h => { h with forwards := h.forwards.put entry f }))

end Sys2Proof.Machine
end

