-- ==== Sys2Proof/Machine/Wafer.lean ====
section
/-!
DEFINITION. The wafer and its power (18 R382 to R393, 19 R395 to R401): clock sources, proofing passes, wafer advances, frequencies, rails,
droop alarms, and the registers whose read clears them.
-/
namespace Sys2Proof.Machine

/-! Clocks (18 R382, R383) -/

/-- One coordinate further from each of the last ones, through their repeaters. -/
def clockNext (bad : Nat → Bool) (seen front : List Nat) : List Nat :=
  (((front.filter (fun g => !bad g)).map (fun g => (List.range 4).filterMap (neighbour g))).flatten.filter (fun n => !seen.contains n)).eraseDups

/-- Length of the shortest path of forwarded clock from the coordinates of `front` to `g`, in rounds. -/
def clockDist (bad : Nat → Bool) (g : Nat) : Nat → List Nat → List Nat → Option Nat
  | 0, _, _ => none
  | n + 1, seen, front =>
    if front.contains g then some 0
    else if front.isEmpty then none
    else (clockDist bad g n (seen ++ front) (clockNext bad (seen ++ front) front)).map (· + 1)

/-- How far the clock has come at the neighbour at a port, where that forwards it to tile `g` and does not have it from there. -/
def clockVia (bad : Nat → Bool) (feeds : List Nat) (g p : Nat) : Option Nat :=
  (neighbour g p).bind (fun n => if bad n then none else clockDist (fun x => bad x || x == g) n waferTiles [] feeds)

/-- The neighbour on the shortest path whose repeater passed, ties in the order N, E, S, W (R382). -/
def clockPort (bad : Nat → Bool) (feeds : List Nat) (g : Nat) : Option Nat :=
  ((List.range 4).foldl (fun (best : Option (Nat × Nat)) p => match clockVia bad feeds g p, best with
    | some d, some b => if d < b.1 then some (d, p) else best
    | some d, none => some (d, p)
    | none, _ => best) none).map (·.2)

/-- A tile's source port, and whether that is an edge bridge: its last switch, else the choice of the boot (R382). -/
def State.clockSource (s : State) (g : Nat) : Nat × Bool :=
  let k := s.wafer (waferOf g)
  match (s.tile g).c.clkSrc, k.clkEntries.find g with
  | some p, _ => (p, false)
  | none, some p => (p, true)
  | none, none => if k.locked then ((clockPort (k.clkBad.contains ·) (k.clkEntries.map (·.1)) g).getD 0, false) else (0, false)

/-- Does the clock repeater of a coordinate forward nothing: it failed at the boot, or has stopped since? -/
def State.repeaterBad (s : State) (g : Nat) : Bool := (s.wafer (waferOf g)).clkBad.contains g || (s.tile g).c.clkStop

/-- The tiles that an edge bridge still feeds. -/
def State.clockFeeds (s : State) (w : Nat) : List Nat :=
  ((s.wafer w).clkEntries.map (·.1)).filter (fun g => (s.tile g).c.clkSrc.isNone && !(s.tile g).c.clkLost)

/-- A tile takes its clock from another neighbour, or from none. The held clock takes no time here (assumption 122), and nothing changes but
the source and its count; the tiles that the repeater feeds go on with it (R383). -/
def State.switchClock (s : State) (g : Nat) (port : Option Nat) : State :=
  s.modTile g (fun t => t.modCtl (fun c => match port with
    | none => { c with clkLost := true }
    | some p => { c with clkSrc := some p, clkLost := false, clkRelock := min (c.clkRelock + 1) 65535 }))

/-- SRC rewritten by the island: a neighbour that has no clock to give is not taken (DESIGN CHOICE, assumption 122). -/
def State.writeClkSrc (s : State) (g port : Nat) : State :=
  if (clockVia s.repeaterBad (s.clockFeeds (waferOf g)) g port).isSome then s.switchClock g (some port) else s

/-- The source clock of a tile stops: its neighbour's repeater forwards no more. -/
def State.stopSource (s : State) (g : Nat) : State :=
  let (p, entry) := s.clockSource g
  match entry, neighbour g p with
  | false, some n => s.modTile n (fun t => t.modCtl (fun c => { c with clkStop := true }))
  | _, _ => s

/-- The tile chooses again by R382, without the source that has stopped. -/
def State.clockStops (s : State) (g : Nat) : State :=
  let s := s.stopSource g
  s.switchClock g (clockPort s.repeaterBad ((s.clockFeeds (waferOf g)).filter (· != g)) g)

/-- CLOCK_SOURCE_SWITCH of the tile in focus: `port` is its source, whose clock stops, or the port to which the island rewrites SRC. -/
def execClockSourceSwitch (port : Nat) (s : State) : Host.Outcome State Fault Refusal :=
  let g := s.focus.tile
  .next (if port = (s.clockSource g).1 then s.clockStops g else s.writeClkSrc g port)

/-- Are the clock and time base of a tile locked (R384)? -/
def State.clockLocked (s : State) (g : Nat) : Bool := (s.wafer (waferOf g)).locked && !(s.tile g).c.clkLost

/-- CLK_SRC. -/
def clkSrcWord (s : State) (g : Nat) : Nat :=
  let c := (s.tile g).c
  let src := s.clockSource g
  bit (s.clockLocked g) 63 + bit src.2 62 + c.clkRelock * 4294967296 + src.1

/-- LINK_DLY of a port: the link measures while its ends are locked and it is up (R384). The delay is the link's own. -/
def linkDlyWord (s : State) (g p : Nat) : Nat :=
  if s.clockLocked g && !s.noLink g p && !s.linkIsDown g p then 9223372036854775808 + (Config.linkDelay g p s.now).toNat else 0

/-- A read of CLK_SRC returns and clears RELOCK. -/
def execClkSrcRead (s : State) : Host.Outcome State Fault Refusal :=
  .next ({ s with ioRead := clkSrcWord s s.focus.tile }.modMyTile (fun t => t.modCtl (fun c => { c with clkRelock := 0 })))

/-! Proofing passes (18 R391 to R393) -/

/-- Has the tile's next place in PERIOD come: the k-th of the n live tiles of a cluster at every multiple of PERIOD and k/n of one (R391; the
multiples counted from 0 of the time base are a DESIGN CHOICE, assumption 125)? -/
def State.passTime (s : State) (g : Nat) : Bool :=
  let p := (s.island (islandOf g)).proofPeriod * 1000000
  let live := (clusterTiles (clusterOf g)).filter (fun m => !(s.tile m).c.dead && !(s.tile m).c.hole)
  let off := live.idxOf g * p / live.length
  decide (off ≤ s.now) && decide ((s.tile g).c.proofAt < off + (s.now - off) / p * p)

/-- May a pass fall due on a tile: enabled, its time come, the tile live and not stopped, its region not being saved, no other tile of the
cluster in one? -/
def State.passMayStart (s : State) (g : Nat) : Bool :=
  let c := (s.tile g).c
  let ten := (s.region (s.regionOf g)).ten
  (s.island (islandOf g)).proofEn && s.passTime g && !c.dead && !c.hole && !c.stopped && !c.quarantined &&
  ten != ctxDraining && ten != ctxSaving && ten != ctxTerminating &&
  (s.thread g 0).run.ts != .stopped && (s.thread g 1).run.ts != .stopped &&
  s.tiles.all (fun (p : Nat × Tile) => clusterOf p.1 != clusterOf g || !(p.2.c.proofing || p.2.c.proofDue))

/-- The leader of the tile's gathering and the tile's own threads stop. -/
def State.stopForPass (s : State) (g : Nat) : State :=
  let f (x : StopReq) : StopReq := { x with tileStop := true }
  let s := if s.leaderOf g = g then s else s.askStop (s.leaderOf g) 0 f
  (s.askStop g 0 f).askStop g 1 f

/-- Have the tile's threads, t2 and copy engine come to rest? -/
def State.passReady (s : State) (g : Nat) : Bool :=
  (s.thread g 0).run.ts.atRest && (s.thread g 1).run.ts.atRest && (s.thread g 2).run.ts == .idle && (s.tile g).e.units.isEmpty

def State.resumePass (s : State) (g : Nat) : State :=
  let l := s.leaderOf g
  let s := (s.endTileStop g 0).endTileStop g 1
  if l = g then s else s.endTileStop l 0

/-- The end of a pass: counted, and a failing tile is quarantined, on which nothing resumes, before its gathering's leader goes on (R393). -/
def State.endPass (s : State) (g : Nat) (fails : Bool) : State :=
  let name := s.nameOf g
  let l := s.leaderOf g
  let s := s.modTile g (fun t => t.modCtl (fun c => { c with proofing := false, proofDue := false }))
  let s := s.modIsland (islandOf g) (fun i =>
    { i with proofCnt := min (i.proofCnt + 1) 4294967295,
             proofFails := if fails then min (i.proofFails + 1) 65535 else i.proofFails,
             proofLast := if fails then name else i.proofLast })
  if fails then (let s := s.tileDies g true true; if l = g then s else s.endTileStop l 0) else s.resumePass g

/-- PROOFING_PASS of the tile in focus: due, then under test once everything of it rests, then over. -/
def execProofingPass (fails : Bool) (s : State) : Host.Outcome State Fault Refusal :=
  let g := s.focus.tile
  let c := s.myTile.c
  .next (if c.proofing then s.endPass g fails
    else if c.proofDue then
      (if s.passReady g then s.modTile g (fun t => t.modCtl (fun c => { c with proofing := true })) else s.stopForPass g)
    else if s.passMayStart g then (s.modTile g (fun t => t.modCtl (fun c => { c with proofDue := true, proofAt := s.now }))).stopForPass g
    else s)

/-- PROOF_STAT: its read returns and clears FAILS. -/
def execProofStatRead (island : Nat) (s : State) : Host.Outcome State Fault Refusal :=
  let i := s.island island
  .next ({ s with ioRead := i.proofFails * 281474976710656 + i.proofLast }.modIsland island (fun i => { i with proofFails := 0 }))

/-- PROOF_CNT: its read returns and clears PASSES. -/
def execProofCntRead (island : Nat) (s : State) : Host.Outcome State Fault Refusal :=
  .next ({ s with ioRead := (s.island island).proofCnt }.modIsland island (fun i => { i with proofCnt := 0 }))

/-! Wafer advance (18 R390) -/

/-- The highest generation in GEN_MAP of a wafer: that of the live coordinates. -/
def State.topGen (s : State) (w : Nat) : Nat :=
  (s.tiles.map (fun (p : Nat × Tile) => if waferOf p.1 = w ∧ !p.2.c.hole ∧ !p.2.c.dead then s.genOf p.1 else 0)).foldl max (s.wafer w).gen

/-- May a context hold names of the wafer: one of its own regions, or of a wafer that counts it into its system, which can be sent its names
(DESIGN CHOICE, assumption 126: what a context holds is the software's)? -/
def State.holdsNames (s : State) (wafer r : Nat) : Bool := regWafer r == wafer || s.inSystem (regWafer r) wafer

/-- WAFER_ADVANCE, while no context that may hold names of the wafer is loaded, saved or swapped. The live coordinates take the new generation,
the dead ones keep theirs, and one retirement entry for each hole is left (R390). -/
def execWaferAdvance (wafer : Nat) (s : State) : Host.Outcome State Fault Refusal :=
  .next (if s.regions.any (fun (p : Nat × Region) => s.holdsNames wafer p.1 && p.2.ten != ctxFree) then s
    else
      let n := nextGen (s.topGen wafer)
      let renew (g : Nat) (t : Tile) : Tile :=
        if waferOf g ≠ wafer then t
        else t.modCtl (fun c => { c with gen := if c.hole then some 0 else if c.dead then some (s.genOf g) else none, retiredAt := 0, quarantined := false })
      let s := { s with tiles := s.tiles.map (fun (p : Nat × Tile) => (p.1, renew p.1 p.2)) }
      (s.modWafer wafer (fun k => { k with gen := n, advanceDue := false })).loadRetired)

/-! Frequencies and rails (19 R395 to R398) -/

/-- FMAX of a rail at `mv` millivolts, in MHz. -/
def fmaxOf (mv : Nat) : Nat := 600 + 25 * ((mv - 650) * 9 / 50)

/-- The frequency that a rail allows: the lower of what it has and what it moves to. -/
def Island.railFmax (i : Island) : Nat := if i.railBusy then min (fmaxOf i.railMv) (fmaxOf i.railNext) else fmaxOf i.railMv

/-- A cluster's frequency in effect changes: what its clock has counted so far is kept, and what is left of its tiles' stretches. -/
def State.setEff (s : State) (c eff : Nat) : State :=
  let k := s.cluster c
  if k.eff = eff then s
  else
    let fold (g : Nat) (t : Tile) : Tile :=
      if clusterOf g ≠ c then t
      else t.modCtl (fun x => let n := x.stretched s.now k.eff; { x with lostU := x.lostU + n, droopLeft := x.droopLeft - n, droopFrom := s.now })
    let s := { s with tiles := s.tiles.map (fun (p : Nat × Tile) => (p.1, fold p.1 p.2)) }
    s.modCluster c (fun k => { k with cycAnchor := k.cycAnchor + 2 * k.eff * (s.now - k.timeAnchor), timeAnchor := s.now, eff := eff })

/-- EFF = min(MHZ, FMAX). -/
def State.settleEff (s : State) (c : Nat) : State :=
  s.setEff c (min (s.cluster c).mhz (s.island (islandOfCluster c)).railFmax)

/-- CLUS_FREQ_WRITE. -/
def State.writeClusFreq (s : State) (cluster value : Nat) : State :=
  let n := value % 2048
  if n < 600 ∨ 1500 < n ∨ n % 25 ≠ 0 then s
    else (s.modCluster cluster (fun k => { k with mhz := n })).settleEff cluster

def execClusFreqWrite (cluster value : Nat) (s : State) : Host.Outcome State Fault Refusal := .next (s.writeClusFreq cluster value)

/-- The clusters of a block that are not at their reset frequencies or that a lower rail may slow: every one. -/
def State.settleBlock (s : State) (i : Nat) : State := (islandClusters i).foldl (fun s c => s.settleEff c) s

/-- RAIL_CTL_WRITE: a lower rail slows the clusters first; a higher one speeds them up once it is there. -/
def State.writeRail (s : State) (island value : Nat) : State :=
  let mv := value % 1024
  if mv < 650 ∨ 850 < mv ∨ (s.island island).railBusy then s
    else (s.modIsland island (fun i => { i with railBusy := true, railNext := mv })).settleBlock island

def execRailCtlWrite (island value : Nat) (s : State) : Host.Outcome State Fault Refusal := .next (s.writeRail island value)

/-- RAIL_CHANGE_COMPLETE. -/
def execRailChangeComplete (island : Nat) (s : State) : Host.Outcome State Fault Refusal :=
  .next (if (s.island island).railBusy then
      (s.modIsland island (fun i => { i with railBusy := false, railMv := i.railNext, railNext := 0 })).settleBlock island
    else s)

/-- CUR_STEP_LIMIT: its read returns and clears STALLS. -/
def execCurStepLimitRead (cluster : Nat) (s : State) : Host.Outcome State Fault Refusal :=
  let k := s.cluster cluster
  .next ({ s with ioRead := k.stalls * 4294967296 + k.stepN }.modCluster cluster (fun k => { k with stalls := 0 }))

/-! Droop (19 R400, R401) -/

/-- DROOP_ALARM at the tile in focus: the next six cycles last twice their period; an alarm in a stretch begins a new one. -/
def execDroopAlarm (s : State) : Host.Outcome State Fault Refusal :=
  let eff := (s.cluster (clusterOf s.focus.tile)).eff
  .next (s.modMyTile (fun t => t.modCtl (fun c =>
    if c.droopThr = 0 then c
    else { c with droopCnt := min (c.droopCnt + 1) 4294967295, droopLast := s.now, lostU := c.lost s.now eff, droopFrom := s.now,
                  droopLeft := 12000 })))

/-- DROOP_CNT: its read returns and clears CNT. -/
def execDroopCntRead (s : State) : Host.Outcome State Fault Refusal :=
  .next ({ s with ioRead := s.myTile.c.droopCnt }.modMyTile (fun t => t.modCtl (fun c => { c with droopCnt := 0 })))

end Sys2Proof.Machine
end

