-- ==== Sys2Proof/Machine/Islands.lean ====
section
/-!
DEFINITION. What the islands do for tiles (20 R410, R411, R417, R418): system calls, NVMe queues, and the Oxsor link between wafers. What
the island's file system and the controllers answer is data of the environment.
-/
namespace Sys2Proof.Machine

/-! Tenant addresses (20 R411, 12 R274) -/

/-- The walk of a tenant virtual address under its region's tables. -/
def regionWalk (s : State) (r va : Nat) (k : AccKind) : WalkRes :=
  let q := s.region r
  if q.xlatMode ≠ 10 ∨ 144115188075855872 ≤ va ∨ q.ppn * 4096 / 8796093022208 ≠ 0 then .miss missNoMap
  else walkFrom s (regWafer r) r q.asid va k 5 q.ppn

/-- The physical address of a tenant virtual address. -/
def regionPa (s : State) (r va : Nat) (k : AccKind) : Option Nat :=
  match regionWalk s r va k with
  | .entry e => if e.pa va < 8796093022208 then some (e.pa va) else none
  | _ => none

/-- The physical runs of a buffer, page by page; none where a page is not pinned. -/
def bufferRuns (s : State) (r va n : Nat) (k : AccKind) : Option (List (Nat × Nat)) :=
  (pieces 4096 va n).foldr (fun p acc => match acc, regionPa s r p.1 k with
    | some l, some pa => if edgeExists pa p.2 then some ((pa, p.2) :: l) else none
    | _, _ => none) (some [])

/-- Does a walk for a page of a buffer meet a claimed line (13 R291)? -/
def bufferBusy (s : State) (r va n : Nat) (k : AccKind) : Bool := (pieces 4096 va n).any (fun p => regionWalk s r p.1 k == .busy)

def runsClaimed (s : State) (w : Nat) (l : List (Nat × Nat)) : Bool := l.any (fun p => edgeClaimed s w p.1 p.2)
def readRuns (s : State) (w : Nat) (l : List (Nat × Nat)) : List Byte := (l.map (fun p => edgeRead s w p.1 p.2)).flatten

/-- The bytes over the runs, as far as they reach. -/
def writeRuns (s : State) (w : Nat) : List (Nat × Nat) → List Byte → State
  | [], _ => s
  | (a, n) :: r, bs => if bs.isEmpty then s else writeRuns (edgeWrite s w a (bs.take n)) w r (bs.drop n)

/-! System calls (04 R74, 20 R410, R411) -/

def callDone : Nat := 0
def callCancelled : Nat := 1
def callNosys : Nat := 2
/-- Negative results. -/
def errBadArg : Nat := 18446744073709551615
def errNoObject : Nat := 18446744073709551614
def errNoResource : Nat := 18446744073709551613
def errNotPermitted : Nat := 18446744073709551612

/-- The island that serves the calls of the thread in focus: the one that polices its region (17 R373). -/
def State.callHome (s : State) : Nat := islandHome (s.policing (s.regionOf s.focus.tile) (islandOf s.focus.tile))

/-- The call of the thread in focus that waits at its island, if `p` picks its number: the message, its arguments, and the state without it.
The call of a stopped thread stays pending (04 R74; assumption 76). -/
def State.pendingCall (s : State) (p : Nat → Bool) : Option (Msg × List Nat × State) :=
  let mine (m : Msg) : Bool := match m.body with
    | .syscall args _ => m.srcHome == s.focus.tile && m.sthr == s.focus.thread && p (args.getD 7 0) && s.callerWaits m 1
    | _ => false
  match takeMsg mine (s.home s.callHome).inbox with
  | some (m, rest) => match m.body with
    | .syscall args _ => some (m, args, s.modHome s.callHome (fun q => { q with inbox := rest }))
    | _ => none
  | none => none

/-- The reply to a call. -/
def State.replyCall (s : State) (m : Msg) (a0 status : Nat) : State :=
  let i := m.dstHome
  s.inject i { dst := m.src, src := s.homeName i, dstHome := m.srcHome, srcHome := i, vc := 15, kind := 9, lv := false, lexp := 0, len := 1,
                region := m.region, handler := 0, seq := m.seq, sthr := m.sthr, aux := 4096, body := .callReply a0 status }

/-- One call: its answer, or nothing yet. -/
def State.serve (s : State) (n : Nat) (f : State → Nat → List Nat → Option (State × Nat)) : State :=
  match s.pendingCall (· == n) with
  | none => s
  | some (m, args, s') => match f s' (homeWafer m.srcHome * 256 + m.region) args with
    | some (s'', v) => s''.replyCall m v callDone
    | none => s

/-- Number 0 answers 0; a number that no call has answers NOSYS. -/
def execSyscallNop (s : State) : Host.Outcome State Fault Refusal :=
  .next (match s.pendingCall (fun n => n == 0 || decide (8 < n)) with
    | none => s
    | some (m, args, s) => s.replyCall m 0 (if args.getD 7 0 = 0 then callDone else callNosys))

/-- Is a path string pinned, page by page up to the zero byte that ends it (PRESUMED, assumption 133)? None while a line of it is claimed (13 R291). -/
def pathPinned (s : State) (r : Nat) : Nat → Nat → Option Bool
  | 0, _ => some false
  | n + 1, va =>
    let len := 4096 - va % 4096
    match regionPa s r va .read with
    | none => if regionWalk s r va .read == .busy then none else some false
    | some pa =>
      if !edgeExists pa len then some false
      else if edgeClaimed s (regWafer r) pa len then none
      else if (edgeRead s (regWafer r) pa len).contains 0 then some true
      else pathPinned s r n (va + len)

/-- OPEN: `result` is the island's answer, a file number or a negative result. The region's open files keep their access. -/
def execOpenFile (result : Nat) (s : State) : Host.Outcome State Fault Refusal :=
  .next (s.serve 1 (fun s r a =>
    let v := result % 18446744073709551616
    if 2 < a.getD 1 0 then some (s, errBadArg)
    else match pathPinned s r 35184372088832 (a.getD 0 0) with
      | none => none
      | some false => some (s, errBadArg)
      | some true =>
        if 9223372036854775808 ≤ v then some (s, v)
        else some (s.modRegion r (fun q => { q with files := q.files.put v (a.getD 1 0, 0) }), v)))

def execCloseFile (s : State) : Host.Outcome State Fault Refusal :=
  .next (s.serve 2 (fun s r a =>
    if ((s.region r).files.find (a.getD 0 0)).isNone then some (s, errNoObject)
    else some (s.modRegion r (fun q => { q with files := q.files.del (a.getD 0 0) }), 0)))

/-- The checks that READ and WRITE share, and the buffer's runs. `bad` is the access that does not allow it. -/
def fileBuffer (s : State) (r : Nat) (a : List Nat) (bad : Nat) (k : AccKind) : Nat ⊕ List (Nat × Nat) :=
  match (s.region r).files.find (a.getD 0 0) with
  | none => .inl errNoObject
  | some f =>
    if f.1 = bad then .inl errNotPermitted
    else if 1073741824 < a.getD 2 0 then .inl errBadArg
    else match bufferRuns s r (a.getD 1 0) (a.getD 2 0) k with
      | some l => .inr l
      | none => .inl errBadArg

/-- READ: `data` is what the file yields, at most the length asked for. The bytes are written before the reply leaves. -/
def execReadFile (data : List Nat) (s : State) : Host.Outcome State Fault Refusal :=
  .next (s.serve 3 (fun s r a =>
    if bufferBusy s r (a.getD 1 0) (min (a.getD 2 0) 1073741824) .write then none
    else match fileBuffer s r a 1 .write with
    | .inl e => some (s, e)
    | .inr l =>
      let bs := (data.take (a.getD 2 0)).map (BitVec.ofNat 8)
      if runsClaimed s (regWafer r) l then none else some (writeRuns s (regWafer r) l bs, bs.length)))

/-- WRITE: the island takes `written` bytes of the buffer, which `ioRead` holds. -/
def execWriteFile (written : Nat) (s : State) : Host.Outcome State Fault Refusal :=
  .next (s.serve 4 (fun s r a =>
    if bufferBusy s r (a.getD 1 0) (min (a.getD 2 0) 1073741824) .read then none
    else match fileBuffer s r a 0 .read with
    | .inl e => some (s, e)
    | .inr l =>
      let n := min written (a.getD 2 0)
      if runsClaimed s (regWafer r) l then none
      else some ({ s with ioRead := bytesNat ((readRuns s (regWafer r) l).take n) }, n)))

/-- EXIT: no reply; the caller's context ends (17 R370). -/
def execExitCall (s : State) : Host.Outcome State Fault Refusal :=
  .next (match s.pendingCall (· == 7) with
    | none => s
    | some (m, _, s) => s.terminate (homeWafer m.srcHome * 256 + m.region))

/-- DBGGRANT (21 R427). -/
def execDbggrant (s : State) : Host.Outcome State Fault Refusal :=
  .next (s.serve 8 (fun s r a =>
    if a.getD 0 0 = 1 then some (s.modRegion r (fun q => { q with dbgAllowed := true }), 0)
    else if a.getD 0 0 = 0 then some (s.clearGrant r, 0)
    else some (s, errBadArg)))

/-- The thread in focus sleeps in `ecall` and has its reply. -/
def endEcall (s : State) : State := s.asleepAt (fun i => match i with | .ecall => some doEcall | _ => none)

/-- SYSCALL_REPLY: the reply to the `ecall` of the thread in focus. A stopped thread keeps it for its resumption. -/
def execSyscallReply (s : State) : Host.Outcome State Fault Refusal :=
  let g := s.focus.tile
  let h := s.focus.thread
  .next (match s.replyKept 1 with
    | some _ => endEcall s
    | none => match callAnswer s 1 with
      | none => s
      | some (m, rest) => match m.body with
        | .callReply v st =>
          let out := s.modHome g (fun q => { q with inbox := rest })
          if !s.me.callOpen 1 m.seq then out.replyToSwapped g h 1 m.seq st v
          else
            let kept := out.modMe (·.takeReply st v)
            if s.me.run.ts = .sleeping then endEcall kept else kept
        | _ => s)

/-! NVMe queues (20 R418) -/

def State.nvmeQ (s : State) (i q : Nat) : NvmeQueue := (s.island i).nvme.look q {}
def State.modNvme (s : State) (i q : Nat) (f : NvmeQueue → NvmeQueue) : State :=
  s.modIsland i (fun k => { k with nvme := k.nvme.modify q {} f })

/-- What the tables say of the place of a virtual address's level-0 entry. -/
inductive LeafRes where
  | slot (pa : Nat)
  | none
  /-- a larger page maps the address -/
  | mapped
  /-- a table entry lies in a claimed line (13 R291) -/
  | busy
  deriving DecidableEq, Repr

/-- The address of the level-0 entry that maps a virtual address, where the tables above it exist. -/
def leafSlot (s : State) (wafer va : Nat) : Nat → Nat → LeafRes
  | 0, tbl => let a := tbl * 4096 + va / 4096 % 512 * 8; if edgeClaimed s wafer a 8 then .busy else .slot a
  | n + 1, tbl =>
    let a := tbl * 4096 + va / (4096 * 512 ^ (n + 1)) % 512 * 8
    let pte := bytesNat (edgeRead s wafer a 8)
    let ppn := pte / 1024 % 17592186044416
    if edgeClaimed s wafer a 8 then .busy else if pte % 16 = 1 ∧ ppn < 2147483648 then leafSlot s wafer va n ppn
    else if pte % 2 = 1 ∧ pte % 16 ≠ 1 then .mapped else .none

/-- A queue's entries lie on pinned pages, as far as a0 to a4 say. -/
def nvqArgsOk (s : State) (r : Nat) (a : List Nat) : Bool :=
  let n := a.getD 1 0
  decide (2 ≤ n) && decide (n ≤ 1024) && decide (2 ^ Nat.log2 n = n) && decide (a.getD 4 0 % 4096 = 0) &&
  decide (a.getD 4 0 < 144115188075855872) &&
  (bufferRuns s r (a.getD 2 0) (64 * n) .read).isSome && (bufferRuns s r (a.getD 3 0) (16 * n) .write).isSome

/-- NVQOPEN at the policing island: the lowest free queue, where the rule says only that q is one of 0 to 255 (DESIGN CHOICE, assumption 134), and the
doorbell page mapped at a4, which nothing must map yet. -/
def openNvq (s : State) (r : Nat) (a : List Nat) : Option (State × Nat) :=
  let w := regWafer r
  let i := s.policing r (w * 48)
  let q := s.region r
  let n := a.getD 1 0
  if bufferBusy s r (a.getD 2 0) (64 * min n 1024) .read || bufferBusy s r (a.getD 3 0) (16 * min n 1024) .write then none
  else if !nvqArgsOk s r a then some (s, errBadArg)
  else if (Config.namespaceBlock (a.getD 0 0)).isNone then some (s, errNoObject)
  else match (List.range 256).find? (fun n => !(s.nvmeQ i n).opened), leafSlot s w (a.getD 4 0) 4 q.ppn with
    | _, .busy => none
    | _, .mapped => some (s, errBadArg)
    | some n, .slot slot =>
      let old := bytesNat (edgeRead s w slot 8)
      -- the user window of island i mod 48, page at 0x1000: V, R, W, U, A, D
      let pte := (17592186044416 + i % 48 * 4294967296 + 4096) / 4096 * 1024 + 215
      if old % 2 = 1 then some (s, errBadArg)
      else
        let s := edgeWrite s w slot (natBytes 8 pte)
        some (s.modNvme i n (fun _ => { opened := true, region := r, ns := a.getD 0 0, size := a.getD 1 0, sqVa := a.getD 2 0,
                                        cqVa := a.getD 3 0 }), n)
    | _, _ => some (s, errNoResource)

def execNvqopen (s : State) : Host.Outcome State Fault Refusal := .next (s.serve 5 openNvq)

def execNvqclose (s : State) : Host.Outcome State Fault Refusal :=
  .next (s.serve 6 (fun s r a =>
    let i := s.policing r (regWafer r * 48)
    let n := a.getD 0 0
    if n < 256 ∧ (s.nvmeQ i n).opened ∧ (s.nvmeQ i n).region = r then some (s.modNvme i n (fun _ => {}), 0) else some (s, errNoObject)))

/-- The pages of a command's data as NVMe gives them: PRP1 with its offset, PRP2 the second page or a list. -/
def prpPages (s : State) (r prp1 prp2 len : Nat) : Option (List Nat) :=
  let first := 4096 - prp1 % 4096
  if len ≤ first then some [prp1]
  else
    let more := (len - first + 4095) / 4096
    if more = 1 then some [prp1, prp2]
    else (List.range more).foldr (fun k acc => match acc, regionPa s r (prp2 + 8 * k) .read with
      | some l, some pa => some (bytesNat (edgeRead s (regWafer r) pa 8) :: l)
      | _, _ => none) (some []) |>.map (fun l => prp1 :: l)

/-- The physical runs of a command's data. -/
def prpRuns (s : State) (r : Nat) (len : Nat) (k : AccKind) : List Nat → Option (List (Nat × Nat))
  | [] => some []
  | v :: rest =>
    let n := min len (4096 - v % 4096)
    match regionPa s r v k, prpRuns s r (len - n) k rest with
    | some pa, some l => some ((pa, n) :: l)
    | _, _ => none

/-- A completion entry at the queue's tail, with its phase tag. -/
def State.complete (s : State) (i q cid status : Nat) : State :=
  let k := s.nvmeQ i q
  let dw3 := cid % 65536 + (if k.phase then 65536 else 0) + status % 32768 * 131072
  let entry := (k.sqHead + q * 65536) * 2 ^ 64 + dw3 * 2 ^ 96
  let s := match bufferRuns s k.region (k.cqVa + 16 * k.cqTail) 16 .write with
    | some l => writeRuns s (regWafer k.region) l (natBytes 16 entry)
    | none => s
  s.modNvme i q (fun k => { k with cqTail := (k.cqTail + 1) % k.size, phase := if k.cqTail + 1 = k.size then !k.phase else k.phase })

/-- Bytes of the list of a command's pages, where it has one. -/
def prpList (prp1 len : Nat) : Nat :=
  let first := 4096 - prp1 % 4096
  if len ≤ first then 0 else let more := (len - first + 4095) / 4096; if more = 1 then 0 else 8 * more

/-- Can the island not reach the bytes of a buffer now: a table entry of it or a line of it is claimed (13 R291)? -/
def bufferHeld (s : State) (r va n : Nat) (k : AccKind) : Bool :=
  bufferBusy s r va n k || (match bufferRuns s r va n k with | some l => runsClaimed s (regWafer r) l | none => false)

/-- One submission entry: refused with generic status 0x02, or copied into the controller queue with physical addresses, and with force unit
access on writes (R293). It waits while a line that the island needs is claimed. -/
def State.submit (s : State) (i q : Nat) : State :=
  let k := s.nvmeQ i q
  let r := k.region
  let e := match bufferRuns s r (k.sqVa + 64 * k.sqHead) 64 .read with
    | some l => bytesNat (readRuns s (regWafer r) l)
    | none => 255
  let op := e % 256
  let cid := e / 65536 % 65536
  let len := (e / 2 ^ 384 % 65536 + 1) * (Config.namespaceBlock k.ns).getD 0
  let prp1 := e / 2 ^ 192 % 2 ^ 64
  let prp2 := e / 2 ^ 256 % 2 ^ 64
  let kind : AccKind := if op = 2 then .write else .read
  let bad := decide (2 < op) || decide (e / 2 ^ 32 % 2 ^ 32 ≠ k.ns)
  let runs : Option (List (Nat × Nat)) :=
    if bad then none else if op = 0 then some [] else (prpPages s r prp1 prp2 len).bind (prpRuns s r len kind)
  let held := bufferHeld s r (k.sqVa + 64 * k.sqHead) 64 .read || bufferHeld s r (k.cqVa + 16 * k.cqTail) 16 .write ||
    (!bad && decide (op ≠ 0) && (bufferHeld s r prp2 (prpList prp1 len) .read ||
      ((prpPages s r prp1 prp2 len).getD []).any (fun v => regionWalk s r v kind == .busy)))
  if held then s
  else
    let s := s.modNvme i q (fun k => { k with sqHead := (k.sqHead + 1) % k.size })
    match runs with
    | none => s.complete i q cid 2
    | some l => s.modNvme i q (fun k => { k with ctrl := k.ctrl ++
        [⟨cid, op, op == 1 || e / 2 ^ 414 % 2 == 1, e / 2 ^ 320 % 2 ^ 64, e / 2 ^ 384 % 65536 + 1, l⟩] })

/-- NVME_SUBMISSION_DOORBELL: every entry from the old tail up to the new one, in order. -/
def execNvmeSubmissionDoorbell (island queue : Nat) (s : State) : Host.Outcome State Fault Refusal :=
  let k := s.nvmeQ island queue
  .next (if !k.opened then s
    else upTo ((k.sqTail + k.size - k.sqHead) % k.size) (fun _ s => s.submit island queue) s)

/-- NVME_COMPLETION_DOORBELL: the completions up to the head that the tenant has written are consumed. -/
def execNvmeCompletionDoorbell (island queue : Nat) (s : State) : Host.Outcome State Fault Refusal :=
  .next (if (s.nvmeQ island queue).opened then s.modNvme island queue (fun k => { k with cqSeen := k.cqHead }) else s)

/-- NVME_CONTROLLER_COMPLETION: the controller completes its oldest command; a read's `data` reach memory first, a write's are what
`ioRead` holds. A full completion queue, or a claim on the data, lets it wait. -/
def execNvmeControllerCompletion (island queue status : Nat) (data : List Nat) (s : State) : Host.Outcome State Fault Refusal :=
  let k := s.nvmeQ island queue
  .next (match k.ctrl with
    | [] => s
    | c :: rest =>
      let w := regWafer k.region
      if !k.opened ∨ (k.cqTail + 1) % k.size = k.cqSeen ∨ runsClaimed s w c.runs ∨ bufferHeld s k.region (k.cqVa + 16 * k.cqTail) 16 .write then s
      else
        let s := s.modNvme island queue (fun k => { k with ctrl := rest })
        let s := if c.op = 2 then writeRuns s w c.runs (data.map (BitVec.ofNat 8))
          else if c.op = 1 then { s with ioRead := bytesNat (readRuns s w c.runs) } else s
        s.complete island queue c.cid status)

/-! Oxsor link (20 R416, R417) -/

/-- The first message that has room with no earlier one of its VC before it: a full VC holds up no other (R417). -/
def firstOpenVc (room : Msg → Bool) (held : List Nat) : List Msg → Option (Msg × List Msg)
  | [] => none
  | m :: r =>
    if !held.contains m.vc && room m then some (m, r)
    else match firstOpenVc room (m.vc :: held) r with
      | some (x, r') => some (x, m :: r')
      | none => none

/-- Has the input buffer at the far end of a path room for a message, at the coordinate of the port by which it left? -/
def State.farRoom (s : State) (dst : Nat) (m : Msg) : Bool :=
  let (at_, esc, _) := m.route.getD (0, false, false)
  let rt := (s.tile (dst * waferTiles + at_ / 4)).rt
  !rt.stoppedRouter && fitsBuf (if esc then 4 else 8) (rt.bufs.look (bufKey (at_ % 4) m.vc esc) []) m.len

/-- OXSOR_FRAME: a message of a path enters the destination wafer at the coordinate of the port by which it left, in the kind of buffer it
left, and is checked where that lies in its destination's cluster (07 R159, R170). Its frame carries the next sequence, and is acknowledged. -/
def execOxsorFrame (src dst : Nat) (s : State) : Host.Outcome State Fault Refusal :=
  let k := oxsorKey src dst
  let p := s.oxsor.look k {}
  .next (match firstOpenVc (s.farRoom dst) [] p.queue with
    | none => s
    | some (m, rest) =>
      if p.down then s
      else
        let (at_, esc, _) := m.route.getD (0, false, false)
        let g := dst * waferTiles + at_ / 4
        let s : State := { s with oxsor := s.oxsor.put k { p with queue := rest, since := s.now, seq := (p.seq + 1) % 4294967296, acked := p.seq } }
        match s.ingressRefusal (src * waferTiles + at_ / 4) g m with
        | some r => s.refuse g m r
        | none => s.arrive g (at_ % 4) esc { m with route := none })

/-- OXSOR_RETRANSMIT: a frame without its acknowledgement is sent again; its messages still arrive once and in order. -/
def execOxsorRetransmit (_src _dst : Nat) (s : State) : Host.Outcome State Fault Refusal := .next s

/-- OXSOR_PATH_DOWN: messages wait and no frame has been delivered for 10 ms. Every island of both wafers hears of it. -/
def execOxsorPathDown (src dst : Nat) (s : State) : Host.Outcome State Fault Refusal :=
  let k := oxsorKey src dst
  let p := s.oxsor.look k {}
  .next (if p.down ∨ p.queue.isEmpty ∨ s.now < p.since + 10000000 then s
    else
      let s := { s with oxsor := s.oxsor.put k { p with queue := [], down := true } }
      let s := p.queue.foldl (fun s m => s.pathLost (src * waferTiles + (m.route.getD (0, false, false)).1 / 4) m) s
      upTo 48 (fun i s => (s.notice (src * 48 + i) 0x44 k).notice (dst * 48 + i) 0x44 k) s)

end Sys2Proof.Machine
end

