-- ==== Sys2Proof/Machine/Boot.lean ====
section
/-!
DEFINITION. Bring-up, life cycle, measurements and placement images (21 R420 to R426, 17 R376 to R378, 02 R48, R49).
-/
namespace Sys2Proof.Machine

/-! The wipe (21 R422, R423) -/

/-- The entries of a table whose keys do not belong to a wafer. -/
def offWafer {α : Type} (own : Nat → Nat) (w : Nat) (t : Tab α) : Tab α := t.filter (fun p => own p.1 != w)

/-- Everything of a wafer at its reset value: tiles, clusters, islands, regions, homes, scratchpads, Oxsor queues. Edge memory, the fuses and the
last accepted token counter stay. -/
def State.wipeWafer (s : State) (w : Nat) : State :=
  let k := s.wafer w
  { s with
    tiles := offWafer waferOf w s.tiles,
    homes := offWafer homeWafer w s.homes,
    clusters := offWafer (· / 3072) w s.clusters,
    islands := offWafer (· / 48) w s.islands,
    regions := offWafer regWafer w s.regions,
    mem := s.mem.filter (fun c => !(isPadKey c.1) || waferOf (padOf c.1) != w),
    -- what waits on the wafer's paths to others
    oxsor := offWafer (· / 64) w s.oxsor,
    wafers := s.wafers.put w { life := k.life, ownerKey := k.ownerKey, vendorKey := k.vendorKey, fused := k.fused, tokenCount := k.tokenCount } }

/-! Measurements (21 R426) -/

/-- A number as `n` bytes. -/
def byteNats (n v : Nat) : List Nat := (natBytes n v).map BitVec.toNat

/-- MRn ← SHAKE256(MRn ∥ D). -/
def State.extend (s : State) (w n d : Nat) : State :=
  s.modWafer w (fun k => { k with mrs := k.mrs.modify n 0 (fun m => Config.shake256 (byteNats 64 m ++ byteNats 64 d)) })

def lcCode (l : LifeState) : Nat :=
  match l with
  | .blank => 0 | .manufacture => 1 | .secured => 2 | .debugOpen => 3 | .returned => 4 | .retired => 5

/-- ATTESTATION_QUOTE: a signature over the nonce, MR0 to MR7, LC and the count of quotes since reset. In the safe state no firmware makes one
(R421). -/
def execAttestationQuote (wafer nonce : Nat) (s : State) : Host.Outcome State Fault Refusal :=
  let k := s.wafer wafer
  let seq := k.quotes + 1
  let body := byteNats 32 nonce ++ ((List.range 8).map (fun n => byteNats 64 (k.mrs.look n 0))).flatten ++ [lcCode k.life] ++ byteNats 8 seq
  let sig := Config.ed448Sign (Config.shake256 body)
  .next (if k.bootSafe then s
    else { s with ioRead := sig }.modWafer wafer (fun k => { k with quotes := seq, lastQuote := body ++ byteNats 114 sig }))

/-! Power-on (21 R420, 18 R386) -/

/-- The safe state at a stage, with its code. -/
def State.safeAt (s : State) (w stage code : Nat) : State :=
  s.modWafer w (fun k => { k with bootStep := stage, bootFail := code, bootSafe := true })

/-- The physical rows of a cluster that hold a failing tile. -/
def failRows (st : SelfTest) (c : Nat) : List Nat := (st.failedTiles.filter (fun x => x.1 = c)).map (fun x => x.2.1)

/-- The logical row of a physical row, when row `p` is mapped out. -/
def logicalRow (p r : Nat) : Nat := if p < r then r - 1 else r

/-- Rows and holes of one cluster with failing tiles. -/
def State.mapCluster (s : State) (w : Nat) (st : SelfTest) (c : Nat) : State :=
  let rows := failRows st c
  let p := rows.foldl min 12
  let cl := w * 3072 + c
  let s := s.modCluster cl (fun k => { k with spareRow := some p, defRow := p, badRows := rows })
  (st.failedTiles.filter (fun x => x.1 = c ∧ x.2.1 ≠ p)).foldl (fun s x =>
    let r := if p = 12 then x.2.1 else logicalRow p x.2.1
    s.modTile (tileIn cl (16 * r + x.2.2 % 16)) (fun t => t.modCtl (fun k => { k with hole := true, dead := true, gen := some 0 }))) s

/-- A cluster out of service (R387): all its coordinates are dead. -/
def State.clusterOff (s : State) (c : Nat) : State :=
  (clusterTiles c).foldl (fun s g => s.modTile g (fun t =>
    { t with c := { t.c with dead := true }, rt := { t.rt with closed := true } })) (s.modCluster c (fun k => { k with off := true }))

/-- An override entry of the router at a coordinate; an island slot's routers share the island's (07 R160). -/
def State.putOvr (s : State) (g entry value : Nat) : State :=
  let v : Word64 := BitVec.ofNat 64 (value / 16384 * 16384)
  if islandSlot (clusterOf g) then s.modIsland (islandOf g) (fun i => { i with ovr := i.ovr.put (entry % 16) v })
  else s.modTile g (fun t => t.modRouter (fun r => { r with ovr := r.ovr.put (entry % 16) v }))

/-- The channels that a message to home `h` takes from router `x`, as router, output and kind of buffer, up to its ejection or where it ends. -/
def State.trail (s : State) (h : Nat) : Nat → Nat → Bool → List (Nat × Nat × Bool)
  | 0, _, _ => []
  | n + 1, x, esc =>
    let (out, esc', _) := s.routeOf x esc h
    (x, out, esc') :: (if 3 < out || s.noLink x out then []
      else match neighbour x out with
        | some y => State.trail s h n y esc'
        | none => [])

/-- Is a graph of channels free of cycles? Edges that lead nowhere further fall away, until none does. -/
def acyclic : Nat → List ((Nat × Nat × Bool) × (Nat × Nat × Bool)) → Bool
  | 0, l => l.isEmpty
  | n + 1, l => let on := l.filter (fun e => l.any (fun d => d.1 == e.2)); if on.length = l.length then l.isEmpty else acyclic n on

/-- Is every pair of live coordinates of the wafer joined by a route, with acyclic escape dependencies (R387)? -/
def State.routesSound (s : State) (w : Nat) : Bool :=
  let live := ((List.range waferTiles).map (w * waferTiles + ·)).filter (fun g =>
    !islandSlot (clusterOf g) && !(s.tile g).c.hole && !(s.tile g).c.dead)
  let trails := (live.map (fun a => live.map (fun b => s.trail b (2 * waferTiles) a false))).flatten
  let deps := (trails.map (fun l => (l.zip (l.drop 1)).filter (fun e => e.1.2.2 && e.2.2.2))).flatten
  trails.all (fun l => match l.getLast? with | some c => c.2.1 == 4 | none => false) && acyclic deps.length deps

/-- The tiles that no path of forwarded clock reaches stay without a lock (R382, R384). -/
def State.unlockFar (s : State) (w : Nat) : State :=
  let k := s.wafer w
  if k.clkBad.isEmpty then s
  else (((List.range waferTiles).map (w * waferTiles + ·)).filter (fun g =>
    (clockDist (k.clkBad.contains ·) g waferTiles [] (k.clkEntries.map (·.1))).isNone)).foldl (fun s g =>
      s.modTile g (fun t => t.modCtl (fun c => { c with clkLost := true }))) s

/-- A change of the routers' standing at both ends of a link: of port `p` of a coordinate, and of the port that faces it. -/
def State.bothEnds (s : State) (g p : Nat) (f : Router → Nat → Router) : State :=
  let s := s.modTile g (fun t => t.modRouter (fun r => f r p))
  match neighbour g p with
  | some n => s.modTile n (fun t => t.modRouter (fun r => f r (opposite p)))
  | none => s

/-- Stage 3: clocks, rows and holes, links unused, clusters out of service, overrides, the first generation. Where the firmware's overrides do
not join the live coordinates, the clusters with failing tiles go out of service instead (R387; DEDUCED, assumption 127). -/
def State.mapWafer (s : State) (w : Nat) (st : SelfTest) : State :=
  let at_ (n : Nat) : Nat := w * waferTiles + n
  let failing := (st.failedTiles.map (·.1)).eraseDups
  let s := s.modWafer w (fun k => { k with
    locked := !st.clockEntries.isEmpty, gen := 1, clkBad := st.failedRepeaters.map at_,
    clkEntries := st.clockEntries.foldl (fun t x => t.put (at_ x.1) (x.2 % 4)) [] })
  let s := failing.foldl (fun s c => s.mapCluster w st c) (s.unlockFar w)
  let s := st.unusedLinks.foldl (fun s x => s.bothEnds (at_ x.1) (x.2 % 4) (fun r p => { r with linkUnused := r.linkUnused.put p true })) s
  let s := st.failedIslands.foldl (fun s i => s.modIsland (w * 48 + i) (fun k => { k with failed := true })) s
  let off := st.offClusters.map (w * 3072 + ·) ++ (st.failedIslands.map (fun i => islandClusters (w * 48 + i))).flatten
  let s := off.foldl (fun s c => s.clusterOff c) s
  let t := st.overrides.foldl (fun s x => s.putOvr (at_ x.1) x.2.1 x.2.2) s
  let sound := (st.failedTiles.isEmpty && st.overrides.isEmpty) || t.routesSound w
  (if sound then t else failing.foldl (fun s c => s.clusterOff (w * 3072 + c)) s).loadRetired

/-- Clusters in service. -/
def State.inService (s : State) (w : Nat) : Nat := 3024 - (s.clusters.filter (fun (p : Nat × Cluster) => p.1 / 3072 == w && p.2.off)).length

/-- Is the digest of a public key fused in an unrevoked slot (21 R425): 0 the owner's, 1 the vendor's? Ed448 keys have 57 bytes. -/
def keyFused (s : State) (w slot key : Nat) : Bool :=
  key != 0 && !Config.slotRevoked w slot && (s.wafer w).fused.find slot == some (Config.shake256 (byteNats 57 key))

/-- A stage of the firmware verifies: a vendor's everywhere, an owner's unless its keys are erased (21 R424, R425). -/
def stageOk (s : State) (w : Nat) (x : Stage) : Bool :=
  (x.slot == 1 || (s.wafer w).life != .returned) && keyFused s w x.slot x.key &&
  Config.ed448Verify x.key (Config.shake256 x.image) x.signature

/-- Each later stage verifies the next: they extend MR1 to MR3 (21 R425, R426), a fourth and further one MR3 again. One that fails leaves stage
6 unreached (DESIGN CHOICE, assumption 128). -/
def State.laterStages (s : State) (w : Nat) (l : List Stage) : State :=
  let ok := l.takeWhile (stageOk s w)
  let s := ok.zipIdx.foldl (fun s (x : Stage × Nat) => s.extend w (min (x.2 + 1) 3) (Config.shake256 x.1.image)) s
  if ok.length = l.length then s.modWafer w (fun k => { k with booted := true, bootStep := 6, sysCfg := w })
  else s.modWafer w (fun k => { k with bootStep := 6 })

/-- The stages of R420, after the wipe. -/
def State.boot (s : State) (w : Nat) (st : SelfTest) : State :=
  let s := s.wipeWafer w
  if !st.serviceOk then s.safeAt w 1 1
  else if st.failedIslands.contains 0 then s.safeAt w 2 2
  else
    let s := s.mapWafer w st
    let k := s.wafer w
    if s.inService w = 0 then s.safeAt w 3 3
    else if k.life = .blank ∨ k.life = .retired then s.safeAt w 3 0
    else if !stageOk s w st.firmware then s.safeAt w 4 4
    else (s.extend w 0 (Config.shake256 st.firmware.image)).laterStages w st.stages

def execPowerOn (wafer : Nat) (selfTest : SelfTest) (s : State) : Host.Outcome State Fault Refusal := .next (s.boot wafer selfTest)
def execManagementPortReset (wafer : Nat) (selfTest : SelfTest) (s : State) : Host.Outcome State Fault Refusal :=
  .next (s.boot wafer selfTest)

/-- BOOT_STAT (R421). -/
def bootStat (s : State) (w : Nat) : Nat :=
  let k := s.wafer w
  bit k.bootSafe 63 + bit k.booted 62 + k.bootStep * 2 ^ 59 + lcCode k.life * 2 ^ 56 + k.bootFail * 2 ^ 48 +
  (3024 - s.inService w) * 2 ^ 32 + (s.tiles.filter (fun (p : Nat × Tile) => waferOf p.1 == w && (p.2.c.dead || p.2.c.hole))).length

/-! Life cycle (21 R424) -/

/-- A token at a PA of edge memory: a 64-bit counter and an Ed448 signature of 114 bytes. -/
def tokenOf (s : State) (w pa : Nat) : Nat × Nat := (bytesNat (edgeRead s w pa 8), bytesNat (edgeRead s w (pa + 8) 114))

/-- The public key of a slot. -/
def Wafer.keyOf (k : Wafer) (slot : Nat) : Nat := if slot = 0 then k.ownerKey else k.vendorKey

/-- Does the token ask for the state, with a fresh counter, under the key of a slot? -/
def tokenOk (s : State) (w pa slot : Nat) (to_ : LifeState) : Bool :=
  let t := tokenOf s w pa
  let k := s.wafer w
  let key := k.keyOf slot
  keyFused s w slot key && decide (k.tokenCount < t.1) &&
  Config.ed448Verify key (Config.shake256 ([lcCode to_] ++ byteNats 8 (Config.deviceId w) ++ byteNats 8 t.1)) t.2

/-- An accepted transition: the fuses, the wipe, and the reset with its stages (R420, R422), in which what is found is free. -/
def State.enterLife (s : State) (w : Nat) (l : LifeState) (counter : Nat) : State :=
  let s := s.modWafer w (fun k => { k with life := l, tokenCount := counter, ownerKey := if l = .returned then 0 else k.ownerKey,
                                           fused := if l = .returned then k.fused.del 0 else k.fused })
  { s with fresh := s.fresh + 1 }.boot w (Config.selfTest w s.fresh)

/-- Provisioning fuses the keys' digests in slots 0 and 1. -/
def execLcProvision (wafer ownerKey vendorKey : Nat) (s : State) : Host.Outcome State Fault Refusal :=
  let digest (key : Nat) : Nat := Config.shake256 (byteNats 57 key)
  .next (if (s.wafer wafer).life = .blank then
      (s.modWafer wafer (fun k => { k with ownerKey := ownerKey, vendorKey := vendorKey, fused := [(0, digest ownerKey), (1, digest vendorKey)] })).enterLife
        wafer .manufacture (s.wafer wafer).tokenCount
    else s)

/-- A request with a token under the key of one of the given slots. A token under a claim is not read yet (13 R291). -/
def State.lifeRequest (s : State) (w pa : Nat) (to_ : LifeState) (slots : List Nat) : State :=
  if !edgeClaimed s w pa 122 && slots.any (fun slot => tokenOk s w pa slot to_) then s.enterLife w to_ (tokenOf s w pa).1 else s

def State.lcSecured (s : State) (w pa : Nat) : State :=
  let k := s.wafer w
  s.lifeRequest w pa .secured (match k.life with
    | .manufacture => [1]
    | .debugOpen => [0]
    | _ => [])

def State.lcDebugOpen (s : State) (w pa : Nat) : State :=
  let k := s.wafer w
  s.lifeRequest w pa .debugOpen (if k.life = .secured then [0] else [])

def State.lcReturn (s : State) (w pa : Nat) : State :=
  let k := s.wafer w
  s.lifeRequest w pa .returned (if k.life = .secured ∨ k.life = .debugOpen then [1] else [])

def State.lcRetired (s : State) (w pa : Nat) : State :=
  let k := s.wafer w
  s.lifeRequest w pa .retired (if k.life = .retired then [] else [0, 1])

def execLcReqSecured (wafer tokenAt : Nat) (s : State) : Host.Outcome State Fault Refusal := .next (s.lcSecured wafer tokenAt)
def execLcReqDebugOpen (wafer tokenAt : Nat) (s : State) : Host.Outcome State Fault Refusal := .next (s.lcDebugOpen wafer tokenAt)
def execLcReqReturn (wafer tokenAt : Nat) (s : State) : Host.Outcome State Fault Refusal := .next (s.lcReturn wafer tokenAt)
def execLcReqRetired (wafer tokenAt : Nat) (s : State) : Host.Outcome State Fault Refusal := .next (s.lcRetired wafer tokenAt)

/-! Virtual functions and host resets (17 R376 to R378) -/

/-- The calls of a region end with CANCELLED, and replies on their way are discarded. -/
def State.cancelCalls (s : State) (r : Nat) : State :=
  let isReply (m : Msg) : Bool := match m.body with | .callReply _ _ => ofRegion r m | _ => false
  let isCall (m : Msg) : Bool := match m.body with | .syscall _ _ => ofRegion r m | _ => false
  let isGone (m : Msg) : Bool := match m.body with | .allocate => ofRegion r m | _ => false
  let drop (l : List Msg) : List Msg := l.filter (fun m => !isReply m)
  let s := { s with
    tiles := s.tiles.map (fun (p : Nat × Tile) =>
      (p.1, { p.2 with rt := { p.2.rt with bufs := p.2.rt.bufs.map (fun (b : Nat × List Msg) => (b.1, drop b.2)) } })),
    homes := s.homes.map (fun (p : Nat × HomeSt) => (p.1, { p.2 with inbox := drop p.2.inbox })) }
  let calls := (s.homes.map (fun (p : Nat × HomeSt) => p.2.inbox.filter isCall)).flatten
  let s := { s with homes := s.homes.map (fun (p : Nat × HomeSt) => (p.1, { p.2 with inbox := p.2.inbox.filter (fun m => !isCall m && !isGone m) })) }
  calls.foldl (fun s m => s.replyCall m 0 callCancelled) s

/-- The region's connections over Oxsor are reset: what it has on the paths between wafers is gone (R377; DEDUCED, assumption 120). -/
def State.cutOxsor (s : State) (r : Nat) : State :=
  { s with oxsor := s.oxsor.map (fun p => (p.1, { p.2 with queue := p.2.queue.filter (fun m => !ofRegion r m) })) }

/-- A function-level reset acts on the bound region alone; one that finds the context LOADING ends it once it is loaded. -/
def State.resetVf (s : State) (w vf : Nat) : State :=
  match boundRegion s w vf with
  | none => s
  | some r =>
    let s := (((s.cancelCalls r).cutOxsor r).clearGrant r).terminate r
    let s := if (s.region r).ten = ctxLoading then s.modRegion r (fun q => { q with endAfterLoad := true }) else s
    -- the reset is in progress until the context is FREE (17 R379)
    if (s.region r).ten = ctxTerminating then s.modRegion r (fun q => { q with busy := true }) else s

/-- VF_RESET, of a function of the wafer in focus. -/
def execVfReset (vf : Nat) (s : State) : Host.Outcome State Fault Refusal := .next (s.resetVf (waferOf s.focus.tile) vf)

/-- HOST_HOT_RESET of one of the four links: with MODE 0 the whole device resets; with MODE 1 only the functions of the link do, and the islands hear of it. -/
def execHostHotReset (wafer link : Nat) (selfTest : SelfTest) (s : State) : Host.Outcome State Fault Refusal :=
  .next (if 4 ≤ link then s
    else if (s.wafer wafer).hostrst then
      let s := ((List.range 64).filter (fun v => (s.wafer wafer).vfLink.look v 0 == link)).foldl (fun s v => s.resetVf wafer v) s
      upTo 48 (fun i s => s.notice (wafer * 48 + i) 0x76 link) s
    else s.boot wafer selfTest)

/-! Placement images (02 R48, R49, 17 R358) -/

/-- A little-endian field of an image. -/
def fieldAt (image : List Nat) (at_ n : Nat) : Nat := bytesNat (((image.drop at_).take n).map (BitVec.ofNat 8))

structure ImgHdr where
  w : Nat
  h : Nat
  tiles : Nat
  segs : Nat
  launches : Nat
  recipes : Nat
  segAt : Nat
  launchAt : Nat
  recipeAt : Nat
  bodyAt : Nat
  len : Nat
  sig : Bool
  deriving DecidableEq, Repr

def imgHdr (m : List Nat) : ImgHdr :=
  { w := fieldAt m 8 2, h := fieldAt m 10 2, tiles := fieldAt m 12 4, segs := fieldAt m 16 4, launches := fieldAt m 20 4,
    recipes := fieldAt m 24 4, segAt := fieldAt m 28 4, launchAt := fieldAt m 32 4, recipeAt := fieldAt m 36 4,
    bodyAt := fieldAt m 40 4, len := fieldAt m 44 4, sig := fieldAt m 48 1 % 2 == 1 }

/-- A segment on a tile: the tile, kind, reserved, offset, length, contents. -/
structure ImgSeg where
  tile : Nat
  kind : Nat
  rsv : Bool
  off : Nat
  len : Nat
  src : Nat
  deriving DecidableEq, Repr

/-- The tile at an offset from the region's origin cluster. -/
def imgTile (w origin x y : Nat) : Nat := tileOf w (origin / 48 * 12 + y) (origin % 48 * 16 + x)

def imgSegs (m : List Nat) (w origin : Nat) (h : ImgHdr) : List ImgSeg :=
  ((List.range h.tiles).map (fun k =>
    let t := 64 + 16 * k
    (List.range (fieldAt m (t + 8) 2)).map (fun j =>
      let a := h.segAt + 16 * (fieldAt m (t + 4) 4 + j)
      { tile := imgTile w origin (fieldAt m t 2) (fieldAt m (t + 2) 2), kind := fieldAt m a 2, rsv := fieldAt m (a + 2) 1 % 2 == 1,
        off := fieldAt m (a + 4) 4, len := fieldAt m (a + 8) 4, src := fieldAt m (a + 12) 4 }))).flatten

/-- A launch record: its tile and doublewords. -/
def imgLaunches (m : List Nat) (w origin : Nat) (h : ImgHdr) : List (Nat × Nat × Nat × Nat) :=
  (List.range h.launches).map (fun k =>
    let a := h.launchAt + 40 * k
    (imgTile w origin (fieldAt m a 2) (fieldAt m (a + 2) 2), fieldAt m (a + 8) 8, fieldAt m (a + 16) 8, fieldAt m (a + 24) 8))

/-- Is the image consistent in itself? Bytes that R48 gives as zero are zero (assumption 100). -/
def imgConsistent (m : List Nat) (h : ImgHdr) : Bool :=
  let inside (x y : Nat) : Bool := decide (x < 16 * h.w) && decide (y < 12 * h.h)
  let parts : List (Nat × Nat) := [(64, 16 * h.tiles), (h.segAt, 16 * h.segs), (h.launchAt, 40 * h.launches), (h.recipeAt, 528 * h.recipes)]
  let last := if h.sig then h.len - 192 else h.len
  let zero (a n : Nat) : Bool := fieldAt m a n == 0
  fieldAt m 0 4 == 0x49505747 && fieldAt m 4 4 == 1 && h.len == m.length && decide (64 ≤ h.len) && (!h.sig || decide (256 ≤ h.len)) &&
  decide (fieldAt m 48 1 < 2) && fieldAt m 49 15 == 0 && decide (0 < h.w) && decide (0 < h.h) &&
  parts.all (fun p => decide (p.1 % 8 = 0) && decide (p.1 + p.2 ≤ last)) &&
  decide (64 + 16 * h.tiles ≤ h.segAt) && decide (h.segAt + 16 * h.segs ≤ h.launchAt) && decide (h.launchAt + 40 * h.launches ≤ h.recipeAt) &&
  decide (h.recipeAt + 528 * h.recipes ≤ h.bodyAt) && decide (h.bodyAt ≤ last) &&
  decide (h.bodyAt % 8 = 0) && decide (last % 8 = 0 ∨ !h.sig) && (!h.sig || zero (last + 186) 6) &&
  (List.range h.tiles).all (fun k =>
    inside (fieldAt m (64 + 16 * k) 2) (fieldAt m (66 + 16 * k) 2) &&
    decide (fieldAt m (68 + 16 * k) 4 + fieldAt m (72 + 16 * k) 2 ≤ h.segs) &&
    decide (fieldAt m (76 + 16 * k) 2 < 4096) && zero (78 + 16 * k) 2) &&
  (List.range h.segs).all (fun j =>
    let a := h.segAt + 16 * j
    decide (fieldAt m (a + 2) 1 ≤ 1) && zero (a + 3) 1 && (fieldAt m a 2 != 3 || zero (a + 12) 4)) &&
  (List.range h.launches).all (fun k =>
    inside (fieldAt m (h.launchAt + 40 * k) 2) (fieldAt m (h.launchAt + 40 * k + 2) 2) && zero (h.launchAt + 40 * k + 4) 4)

/-- A relation between every entry and every later one. -/
def allPairs {α : Type} (f : α → α → Bool) : List α → Bool
  | [] => true
  | x :: r => r.all (f x) && allPairs f r

/-- Segments that fit a tile, do not overlap, and find their contents. -/
def segsOk (h : ImgHdr) (l : List ImgSeg) : Bool :=
  let fits (x : ImgSeg) : Bool := decide (x.kind ≤ 3) && decide (x.off + x.len ≤ 131072) && (!x.rsv || x.kind == 3) &&
    (x.kind == 3 || (decide (h.bodyAt ≤ x.src) && decide (x.src + x.len ≤ if h.sig then h.len - 192 else h.len)))
  let apart (x y : ImgSeg) : Bool := x.tile != y.tile || decide (x.off + x.len ≤ y.off) || decide (y.off + y.len ≤ x.off)
  l.all fits && allPairs apart l

/-- The signature part (21 R425). -/
def imgSigned (s : State) (w : Nat) (m : List Nat) (h : ImgHdr) : Bool :=
  let a := h.len - 192
  let slot := fieldAt m (a + 4) 4
  let key := (s.wafer w).keyOf slot
  let d := Config.shake256 (m.take a)
  h.sig && fieldAt m a 4 == 0x47495347 && decide (slot ≤ 1) && keyFused s w slot key && fieldAt m (a + 8) 64 == d % 256 ^ 64 &&
  Config.ed448Verify key d (fieldAt m (a + 72) 114)

/-- The cells of the segments that are not zero. -/
def segCells (m : List Nat) (l : List ImgSeg) : Memory :=
  l.foldl (fun mem x => if x.kind = 3 then mem
    else mem.writeBytes (padKey x.tile x.off) (((m.drop x.src).take x.len).map (BitVec.ofNat 8))) []

/-- A recipe of the image, as image words and entry register of a slot. -/
def imgRecipe (m : List Nat) (h : ImgHdr) (k : Nat) : Tab Nat × Nat :=
  let a := h.recipeAt + 528 * k
  ((List.range 256).filterMap (fun i => let v := fieldAt m (a + 16 + 2 * i) 2; if v = 0 then none else some (256 * k + i, v)),
   fieldAt m (a + 8) 2 % 256 + fieldAt m (a + 10) 2 % 256 * 256 + fieldAt m (a + 12) 2 % 256 * 65536 + fieldAt m (a + 14) 2 % 256 * 16777216)

/-- The launch records of an image for a cluster, each an island launch (08 R187): the malformed ones are dropped (08 R184). -/
def imgRecs (s : State) (r : Nat) (ls : List (Nat × Nat × Nat × Nat)) (c : Nat) : List TaskRec :=
  (ls.filter (fun x => clusterOf x.1 == c && !recBad x.2.2.1 x.2.2.2)).map (fun x =>
    s.newRec x.1 x.2.1 x.2.2.1 (recWith x.2.2.2 (regId r) false 0 0))

/-- How many of them a queue admits: an ordinary source leaves the last 16 places free (08 R183). -/
def launchRoom : Nat := onChip - 16

/-- The launches that find no room: the island holds them. -/
def imgHeld (s : State) (r : Nat) (ls : List (Nat × Nat × Nat × Nat)) (c : Nat) : List (Nat × TaskRec) :=
  ((List.range 16).map (fun q => (((imgRecs s r ls c).filter (fun t => recQueue t.dw2 == q)).drop launchRoom).map (fun t => (c, t)))).flatten

/-- The cluster part of a context built from an image: the first two recipes in the two slots, the launch records in their queues. -/
def imgCluster (s : State) (m : List Nat) (r : Nat) (h : ImgHdr) (ls : List (Nat × Nat × Nat × Nat)) (c : Nat) : Cluster :=
  let n := min h.recipes 2
  let recs := imgRecs s r ls c
  { img := ((List.range n).map (fun k => (imgRecipe m h k).1)).flatten,
    ent := (List.range n).map (fun k => (k, (imgRecipe m h k).2)),
    queues := ((List.range 16).map (fun q => (q, ((recs.filter (fun t => recQueue t.dw2 == q)).take launchRoom).map (fun t =>
      ({ tr := t, spill := none, ripe := 0 } : QRec))))).filter (fun x => !x.2.isEmpty) }

/-- The clusters of the region an image is for: those of its rectangle that are in service (17 R371, 18 R387). -/
def imgClusters (s : State) (w origin : Nat) (h : ImgHdr) : List Nat :=
  (((List.range h.h).map (fun j => (List.range h.w).map (fun i => w * 3072 + origin + 48 * j + i))).flatten).filter
    (fun c => !islandSlot c && !(s.cluster c).off)

/-- The loader's checks. A segment or a launch record lies on a live coordinate, whatever else its rectangle holds. -/
def imageOk (s : State) (region origin : Nat) (image : List Nat) : Bool :=
  let w := regWafer region
  let h := imgHdr image
  let segs := imgSegs image w origin h
  let ls := imgLaunches image w origin h
  let cs := imgClusters s w origin h
  let live (g : Nat) : Bool := !(s.tile g).c.hole && !(s.tile g).c.dead && !islandSlot (clusterOf g)
  !(s.wafer w).bootSafe && (s.region region).ten == ctxFree && !(s.region region).busy && imgConsistent image h &&
    decide (origin % 48 + h.w ≤ 48) && decide (origin / 48 + h.h ≤ 64) && !cs.isEmpty &&
    segsOk h segs && segs.all (fun x => live x.tile) && ls.all (fun x => live x.1) &&
    (!Config.signedImages || imgSigned s w image h)

/-- The context that an image describes. The 16-bit `lhtbase` value of a tile entry is read as the CSR's value, a byte address
(assumption 98). -/
def imageContext (s : State) (region origin : Nat) (image : List Nat) : Saved :=
  let w := regWafer region
  let h := imgHdr image
  let lht (k : Nat) : Nat × Tile :=
    (imgTile w origin (fieldAt image (64 + 16 * k) 2) (fieldAt image (66 + 16 * k) 2), { r := { lhtbase := fieldAt image (74 + 16 * k) 2 / 512 } })
  let cs := imgClusters s w origin h
  let ls := imgLaunches image w origin h
  ⟨(List.range h.tiles).map lht, cs.map (fun c => (c, imgCluster s image region h ls c)),
   segCells image (imgSegs image w origin h), (cs.map (imgHeld s region ls)).flatten⟩

/-- PLACEMENT_IMAGE_LOAD: the loader's checks, and the context area built from the image; or nothing. The island gives the region its
edge ports (17 R371). A report tells of each malformed launch record. While a claim lies in the area, the load waits (13 R291). -/
def execPlacementImageLoad (region origin : Nat) (ports image : List Nat) (s : State) : Host.Outcome State Fault Refusal :=
  let w := regWafer region
  let h := imgHdr image
  .next (if !imageOk s region origin image then s.notice (s.policing region (w * 48)) 0x71 region
    else
      let v := imageContext s region origin image
      if edgeClaimed s w (s.region region).ctxBase (areaSize (imgClusters s w origin h).length) then s else
      let s := s.modRegion region (fun q => { q with ten := ctxUnloaded, clusters := imgClusters s w origin h,
                                                     ports := ports.filter (fun p => decide (p < 128)), gtSaved := 0, gtOff := 0, gtFrozen := false, image := v.pads,
                                                     reserved := some (((imgSegs image w origin h).filter (fun x => x.rsv)).map (fun x => (x.tile, x.off, x.len))),
                                                     saved := some v })
      let bad := (imgLaunches image w origin h).filter (fun x => recBad x.2.2.1 x.2.2.2)
      let s := bad.foldl (fun s x => s.notice (islandOf x.1) 0x60 (clusterOf x.1)) s
      ({ s with mem := (s.withSaved v).writeArea region v.tiles v.pads s.mem }.touchEdge w (s.region region).ctxBase
        (areaSize (s.region region).clusters.length)).extend w 4 (Config.shake256 (image.take (if h.sig then h.len - 192 else h.len))))

end Sys2Proof.Machine
end

