-- ==== Sys2Proof/Machine/Debug.lean ====
section
/-!
DEFINITION. Debug of a region (21 R427, R428).
-/
namespace Sys2Proof.Machine

/-- May EN be set: with the tenant's grant, or in DEBUG_OPEN? -/
def dbgMay (s : State) (r : Nat) : Bool := (s.region r).dbgAllowed || (s.wafer (regWafer r)).life == .debugOpen

/-- EN written 1: the debugger attaches, and MR5 records the region's id; not in the safe state (R421). -/
def State.attachDebug (s : State) (r : Nat) : State :=
  if (s.wafer (regWafer r)).bootSafe || (s.region r).dbgEn || !dbgMay s r then s
  else (s.modRegion r (fun q => { q with dbgEn := true })).extend (regWafer r) 5 (regId r)

def execDbgEnSet (region : Nat) (s : State) : Host.Outcome State Fault Refusal := .next (s.attachDebug region)
def execDbgEnClear (region : Nat) (s : State) : Host.Outcome State Fault Refusal := .next (s.detachDebug region)

/-- HALT written 1: every thread of the region halts, in a section or not, the landing threads between their handlers (01 R6); without a
debugger nothing happens. -/
def State.haltRegion (s : State) (r : Nat) : State :=
  if (s.region r).dbgEn then
    ((s.regionTiles r).foldl (fun s g => (s.debugHalt g 0).debugHalt g 1) s).modRegion r (fun q => { q with landHalt := true, landFree := [] })
  else s

def execDbgHalt (region : Nat) (s : State) : Host.Outcome State Fault Refusal := .next (s.haltRegion region)

def State.setGrant (s : State) (r : Nat) (grant : Bool) : State :=
  if grant then s.modRegion r (fun q => { q with dbgAllowed := true }) else s.clearGrant r

def execDbgGrant (region : Nat) (grant : Bool) (s : State) : Host.Outcome State Fault Refusal := .next (s.setGrant region grant)

/-- Is the thread in focus halted by a debugger, with nothing else that holds it? -/
def steppable (s : State) : Bool :=
  let c := s.myTile.c
  s.me.run.dbg.halted && (s.region (s.regionOf s.focus.tile)).dbgEn && s.me.run.stop == {} &&
  !(c.reps.look 0 {}).v && !(c.reps.look 1 {}).v

/-- DEBUG_SINGLE_STEP: the halted thread runs on for one instruction, a breakpoint at its pc notwithstanding. -/
def execDebugSingleStep (s : State) : Host.Outcome State Fault Refusal :=
  .next (if steppable s then
      s.modMe (fun t => t.undebug.resumed.modRun (fun r => { r with dbg := { r.dbg with stepping := true, atBrk := true } }))
    else s)

/-- DEBUG_RESUME, of the thread in focus: of the landing thread, the end of the region's HALT at its tile. -/
def execDebugResume (s : State) : Host.Outcome State Fault Refusal :=
  let g := s.focus.tile
  .next (if s.focus.thread = 2 then s.modRegion (s.regionOf g) (fun q => { q with landFree := g :: q.landFree.filter (· != g) })
    else s.debugResume g s.focus.thread)

/-- BREAKPOINT_HALT: the thread in focus halts before the word at its pc, and passes it when it runs on. The landing thread stops between its
handlers alone (01 R6), so an entry for it halts nothing (assumption 102). -/
def execBreakpointHalt (s : State) : Host.Outcome State Fault Refusal :=
  let g := s.focus.tile
  let h := s.focus.thread
  .next (if atBreakpoint s g h && h ≤ 1 && s.me.run.ts == .running && !s.midway g h then
      (s.debugHalt g h).modMe (fun t => t.modRun (fun r => { r with dbg := { r.dbg with atBrk := true } }))
    else s)

end Sys2Proof.Machine
end

