-- ==== Sys2Proof/Machine/Registers.lean ====
section
/-!
DEFINITION. Island writes over the system path (01 R17, 12 R269): the windows of a tile's name, its control window, the registers of its cluster,
and the island's system window (20 R408). Reserved offsets and read-only fields ignore writes.
-/
namespace Sys2Proof.Machine

/-- Bits [hi:lo] of a value. -/
def bitsOf (v hi lo : Nat) : Nat := v / 2 ^ lo % 2 ^ (hi + 1 - lo)

def bit63 (v : Nat) : Bool := v / 9223372036854775808 % 2 == 1

/-- The index of a register in an array of doublewords at `base`, when the offset lies in it. -/
def slotOf (off base n : Nat) : Option Nat :=
  if base ≤ off ∧ off < base + 8 * n ∧ off % 8 = 0 then some ((off - base) / 8) else none

/-! Cluster registers (08 R214, 10 R237, 17 R372, 19 R396) -/

/-- Is a recipe slot open to writes (08 R218)? -/
def slotOpen (k : Cluster) (slot : Nat) : Bool :=
  k.recipeAct != slot && (match k.prepared with | some (p, _) => p != slot | none => true)

/-- How far ranges, as offset and length, run on without a gap from a byte. -/
def reachEnd (l : List (Nat × Nat)) : Nat → Nat → Nat
  | 0, a => a
  | n + 1, a => reachEnd l n (l.foldl (fun a x => if x.1 ≤ a ∧ a < x.1 + x.2 then x.1 + x.2 else a) a)

/-- A value of QSPILL whose rings lie in the area that the region's image reserves on the tile it names (02 R49, 08 R214); a region
without an image has no such bound (assumption 101). -/
def spillPlaced (s : State) (c v : Nat) : Bool :=
  match (s.region (c / 3072 * 256 + (s.cluster c).region)).reserved with
  | none => true
  | some l =>
    let own := (l.filter (fun x => x.1 == tileIn c (bitsOf v 55 48))).map (fun x => x.2)
    let base := bitsOf v 16 5 * 32
    !bit63 v || decide (bitsOf v 55 48 < 192 ∧ base + 512 * bitsOf v 47 32 ≤ reachEnd own own.length base)

/-- Four image words at word `w` of a slot. -/
def writeImage (k : Cluster) (slot w v : Nat) : Cluster :=
  { k with img := upTo 4 (fun j t => t.put (256 * slot + w + j) (v / 65536 ^ j % 65536)) k.img }

def clusterArrays (s : State) (c off v : Nat) : State :=
  match slotOf off 0x4040 16, slotOf off 0x4100 8, slotOf off 0x5000 256, slotOf off 0xC000 256 with
  | some n, _, _, _ =>
    (s.modCluster c (fun k => { k with budget := k.budget.put n (v / 2 ^ 63 % 2 * 2 ^ 63 + bitsOf v 39 0) })).raise c ⟨2, 0, 0, 0, 0⟩
  | _, some n, _, _ => s.modCluster c (fun k => { k with scratch := k.scratch.put n (v % 4294967296) })
  | _, _, some n, _ => (s.modCluster c (fun k => { k with lright := k.lright.put n (v % 65536) })).raise c ⟨2, 0, 0, 0, 0⟩
  | _, _, _, some n => s.modCluster c (fun k => { k with access := k.access.put n (v % 16) })
  | _, _, _, _ => s

/-- Recipe images and entry offsets; a slot that is active, disabled or prepared keeps what it holds. -/
def clusterRecipe (s : State) (c off v : Nat) : State :=
  let k := s.cluster c
  match slotOf off 0x4200 64, slotOf off 0x4400 64, slotOf off 0x4600 2 with
  | some n, _, _ => if slotOpen k 0 then s.modCluster c (fun k => writeImage k 0 (4 * n) v) else s
  | _, some n, _ => if slotOpen k 1 then s.modCluster c (fun k => writeImage k 1 (4 * n) v) else s
  | _, _, some n => if slotOpen k n then s.modCluster c (fun k => { k with ent := k.ent.put n (v % 4294967296) }) else s
  | _, _, _ => s

/-- A new TASK_SLICE: a running task's slice ends are counted anew by it, and those that have passed raise nothing (08 R200; DEDUCED, assumption
132). -/
def State.setTaskSlice (s : State) (c n : Nat) : State :=
  let again (t : Thread) : Thread := t.modRun (fun r => { r with task := r.task.map (fun i => { i with slices := (s.now - i.begun) / n }) })
  let tile (p : Nat × Tile) : Nat × Tile := if clusterOf p.1 = c then (p.1, { p.2 with thr := p.2.thr.map (fun x => (x.1, again x.2)) }) else p
  { s with tiles := s.tiles.map tile }.modCluster c (fun k => { k with taskSlice := n })

def clusterWrite (s : State) (c off v : Nat) : State :=
  match off with
  | 0x4000 => s.clearRecipeCtl c v
  | 0x4008 => s.modCluster c (fun k => { k with ageLimit := max 1 (v % 65536) })
  | 0x4010 => s.modCluster c (fun k => { k with ageOvr := bitsOf v 47 32, overruns := v % 4294967296 })
  | 0x4018 =>
    let k := v % 32
    if k = 0 ∨ (10 ≤ k ∧ k ≤ 24) then s.modCluster c (fun q => { q with timerCfg := k, timerLast := s.now }) else s
  | 0x4020 => s.setTaskSlice c (v % 4294967296)
  | 0x4028 => if spillPlaced s c v = false then s else s.modCluster c (fun k =>
      { k with qspill := v / 2 ^ 63 % 2 * 2 ^ 63 + bitsOf v 55 48 * 2 ^ 48 + bitsOf v 47 32 * 2 ^ 32 + bitsOf v 16 5 * 32 })
  | 0xB000 => s.writeClusFreq c v
  | 0xB008 => s.modCluster c (fun k => { k with stepN := v % 65536 })
  | off =>
    if 0x4200 ≤ off ∧ off < 0x4610 then clusterRecipe s c off v
    else if 0x6000 ≤ off ∧ off < 0x6400 then
      (if off % 16 = 0 then s.writeDomainState (c / 3072 * 256 + (s.cluster c).region) ((off - 0x6000) / 16) v else s)
    else clusterArrays s c off v

/-! A tile's own control registers -/

/-- The generator and pc of a thread, at offsets of the model's own: R17 gives the island these, and no offset. -/
def threadWrite (s : State) (g h n v : Nat) : State :=
  match n with
  | 0 => s.modThread g h (fun t => { r := { t.r with pc := pcWith (s.pcAt g 0) (v % 1048576) },
                                     run := { t.run with dbg := { t.run.dbg with pcWritten := true, atBrk := false } } })
  | 1 => s.modThread g h (fun t => t.modRegs (fun r => { r with s0 := BitVec.ofNat 64 v }))
  | 2 => s.modThread g h (fun t => t.modRegs (fun r => { r with s1 := BitVec.ofNat 64 v }))
  | _ => s

/-- The bits of a retirement entry (07 R167). -/
def nameRetBits (v : Nat) : Word64 := BitVec.ofNat 64 (v / 2 ^ 62 % 4 * 2 ^ 62 + v % 17179869184)

def tileArrays (s : State) (g off v : Nat) : State :=
  match slotOf off 0x1000 16, slotOf off 0x1100 64, slotOf off 0x1A00 4 with
  | some n, _, _ => (s.lookAt g s.focus.thread).writeOvr n v
  | _, some n, _ => s.modTile g (fun t => t.modRouter (fun r => { r with nameRet := r.nameRet.put n (nameRetBits v) }))
  | _, _, some n => s.modTile g (fun t => t.modCtl (fun c =>
      { c with brk := c.brk.put n (BitVec.ofNat 64 (v / 2 ^ 61 % 8 * 2 ^ 61 + bitsOf v 16 2 * 4)) }))
  | _, _, _ => s

def tileControl (s : State) (g off v : Nat) : State :=
  match off with
  | 0x1400 => if bit63 v then (s.lookAt g s.focus.thread).clearLandStat else s
  | 0x1500 => if bit63 v then (s.lookAt g 0).rearm else s
  | 0x1580 => if bit63 v then (s.lookAt g 1).rearm else s
  | 0x1600 => if bit63 v then (s.lookAt g 2).rearm else s
  | 0x1800 => s.writeClkSrc g (v % 4)
  | 0x1900 => s.modTile g (fun t => t.modCtl (fun c => { c with droopThr := v % 16 }))
  | off =>
    if 0x4000 ≤ off then clusterWrite s (clusterOf g) off v
    else if 0x2000 ≤ off ∧ off < 0x2300 ∧ off % 8 = 0 then threadWrite s g ((off - 0x2000) / 256) (off % 256 / 8) v
    else tileArrays s g off v

/-- Does an access on the system path wait: for the claim on a scratchpad line (13 R291), or at window 5 for the queued matrix entries (06 R145)?
It has no effect then, and the island repeats it. -/
def State.systemWaits (s : State) (g win off size : Nat) : Bool :=
  (win == 0 && s.claimed g off size) || (win == 5 && !(s.tile g).e.mq.isEmpty)

/-- A value of `size` bytes at byte `k` of a doubleword. -/
def patchBytes (old k size v : Nat) : Nat :=
  old / 256 ^ (k + size) * 256 ^ (k + size) + v % 256 ^ size * 256 ^ k + old % 256 ^ k

/-- A write at a window and offset of a tile on the system path: the windows of 12 R265 without their access limits. A part of a
doubleword of windows 1 to 6 keeps the rest of it; a stream word and a register of the control window take 8 bytes; window 8 takes
copy-engine writes alone (08 R192). -/
def tileSystemWrite (s : State) (g size win off v : Nat) : State :=
  let src := s.homeName (islandHome (islandOf g))
  let a := win * 1048576 + off
  if !([1, 2, 4, 8].contains size) ∨ off % size ≠ 0 ∨ s.systemWaits g win off size then s
  else if win = 0 then
    (if 131072 < off + size then s else s.storeAt g off (natBytes size v) g 3)
  else if win ≤ 6 then
    if winEnd win < off + size then s
    else
    let d := a / 8 * 8
    writeHome s g d 8 (patchBytes (readHome s g d 8) (a - d) size v) g 3 src
  else if size ≠ 8 then s
  else if win = 7 then (if off < 0x60 then writeHome s g a 8 v g 3 src else s)
  else if win = 15 then tileControl s g off v
  else s

/-- A write at a tile's name: a stale one is refused, and an island hears of it (07 R166, 12 R269). -/
def tileNameWrite (s : State) (name size win off v : Nat) : State :=
  if s.staleName (nameWafer name) name then s.notice (islandOf (nameTile name)) 0x01 name else tileSystemWrite s (nameTile name) size win off v

/-! System windows (20 R408) -/

/-- A tenant block (17 R357). -/
def tenantWrite (s : State) (r off v : Nat) : State :=
  match off with
  | 0x00 => (match v % 16 with
    | 1 => s.tenLoad r
    | 2 => s.tenSave r
    | 3 => s.tenTerminate r
    | _ => s)
  | 0x08 => s.modRegion r (fun q => { q with ctxBase := bitsOf v 55 16 * 65536 })
  | 0x10 => s.modRegion r (fun q => { q with sliceLen := v % 4294967296 })
  | 0x18 => s.modRegion r (fun q => { q with npLimit := v % 4294967296 })
  | 0x20 => s.modRegion r (fun q => { q with debt := v % 4294967296 })
  | 0x30 => s.modRegion r (fun q => { q with swapBase := bitsOf v 55 14 * 16384 })
  | 0x38 => s.modRegion r (fun q => { q with swapN := v % 65536 })
  | _ => s

/-- REGION_XLAT (12 R273): a mode other than 0 and 10 leaves the register unchanged. -/
def writeRegionXlat (s : State) (r v : Nat) : State :=
  let m := bitsOf v 63 60
  if m = 0 ∨ m = 10 then s.modRegion r (fun q => { q with xlatMode := m, asid := bitsOf v 59 44, ppn := bitsOf v 43 0 }) else s

/-- HANG_WINDOW (10 R257). -/
def writeHangWindow (s : State) (r v : Nat) : State :=
  let n := v % 4294967296
  s.modRegion r (fun q => { q with hangWindow := if 0 < n ∧ n < 10000 then 10000 else n })

/-- DBG_CTL (21 R427): EN by the grant as it stands, then GRANT, then HALT. -/
def writeDbgCtl (s : State) (r v : Nat) : State :=
  let s := if bit63 v then s.attachDebug r else if (s.region r).dbgEn then s.detachDebug r else s
  let s := s.setGrant r (v / 2 % 2 == 1)
  if v % 2 = 1 then s.haltRegion r else s

/-- Registers indexed by region: they take effect in the island that polices the region. -/
def regionIndexed (s : State) (i off v : Nat) : State :=
  let at_ (id : Nat) (f : Nat → State) : State :=
    let r := i / 48 * 256 + id
    if s.policing r i = i then f r else s
  match slotOf off 0x21000 256, slotOf off 0x28000 256, slotOf off 0x29000 256, slotOf off 0x2A000 256 with
  | some id, _, _, _ => at_ id (fun r => writeRegionXlat s r v)
  | _, some id, _, _ => at_ id (fun r => s.recipeCommit r v)
  | _, _, some id, _ => at_ id (fun r => writeHangWindow s r v)
  | _, _, _, some id => at_ id (fun r => writeDbgCtl s r v)
  | _, _, _, _ =>
    if 0x22000 ≤ off ∧ off < 0x26000 then at_ ((off - 0x22000) / 64) (fun r => tenantWrite s r (off % 64) v)
    else if 0x26000 ≤ off ∧ off < 0x27000 ∧ off % 16 = 8 then at_ ((off - 0x26000) / 16) (fun r => s.writeGtSaved r v)
    else s

/-- LC_REQ (21 R424): the target state in [2:0], the PA of the token in [55:8]. -/
def lcRequest (s : State) (w v : Nat) : State :=
  let pa := bitsOf v 55 8 * 256
  match v % 8 with
  | 2 => s.lcSecured w pa
  | 3 => s.lcDebugOpen w pa
  | 4 => s.lcReturn w pa
  | 5 => s.lcRetired w pa
  | _ => s

/-- The registers of a wafer's island 0. SYS_CFG is the boot firmware's to write (20 R409). -/
def bootIsland (s : State) (w off v : Nat) : State :=
  match off with
  | 0x30000 => s.modWafer w (fun k => { k with hostrst := v % 2 == 1 })
  | 0x30300 => lcRequest s w v
  | 0x30408 => s.modWafer w (fun k => { k with wafers := v % 18446744073709551616 })
  | off => match slotOf off 0x30100 64 with
    | some n => s.modIsland (w * 48) (fun k => { k with vfBind := k.vfBind.put n (v / 2 ^ 63 % 2 * 2 ^ 63 + v % 256) })
    | none => s

/-- The access tables of edge ports and island windows (17 R372). -/
def accessWrite (s : State) (w off v : Nat) : State :=
  let put (h n : Nat) : State := s.modHome h (fun q => { q with access := q.access.put n (v % 16) })
  if off % 8 ≠ 0 then s
  else if 0x80000 ≤ off ∧ off < 0xC0000 then put (edgeHome w ((off - 0x80000) / 0x800)) (off % 0x800 / 8)
  else if 0xC0000 ≤ off ∧ off < 0xD8000 then put (islandHome (w * 48 + (off - 0xC0000) / 0x800)) (off % 0x800 / 8)
  else s

/-- An override entry of an island slot's routers; messages held there for a link that is down are routed again. -/
def slotOverride (s : State) (i n v : Nat) : State :=
  let s := s.modIsland i (fun k => { k with ovr := k.ovr.put n (BitVec.ofNat 64 (v / 16384 * 16384)) })
  ((s.tiles.map (fun (p : Nat × Tile) => p.1)).filter (fun g => islandSlot (clusterOf g) && islandOf g == i)).foldl (fun s g => s.reroute g) s

def islandWrite (s : State) (i off v : Nat) : State :=
  match off with
  | 0x20000 => s.modIsland i (fun k => { k with invVa := bitsOf v 56 12 * 4096 })
  | 0x20008 => s.modIsland i (fun k => { k with invN := v % 35184372088832 })
  | 0x20010 => writeWxlatInv s i v
  | 0x31000 => s.modIsland i (fun k => { k with proofEn := bit63 v, proofPeriod := max 60000 (v % 4294967296) })
  | 0x32000 => s.writeRail i v
  | off =>
    match slotOf off 0x1000 16 with
    | some n => slotOverride s i n v
    | none =>
      if 0x21000 ≤ off ∧ off < 0x30000 then regionIndexed s i off v
      else if 0x30000 ≤ off ∧ off < 0x30410 then (if i % 48 = 0 then bootIsland s (i / 48) off v else s)
      else accessWrite s (i / 48) off v

/-! Forwarding entries (17 R374, R375) -/

/-- Doubleword 0 of an entry: V = 0 clears it and FWD = 1 marks every line moved; a start names its new chunk and is SLICE_MOVE_START. -/
def forwardWrite (s : State) (home entry v : Nat) : State :=
  if !isEdgeHome home ∨ 64 ≤ entry then s
  else if bit63 v then
    (if v / 2 ^ 62 % 2 = 1 then
      s.modHome home (fun h => { h with forwards := h.forwards.modify entry {} (fun f =>
        { f with v := true, fwd := true, chunk := bitsOf v 35 21, moved := 32768 }) })
    else s)
  else s.modHome home (fun h => { h with forwards := h.forwards.del entry })

/-- REGION_SEED (04 R90). -/
def seedWrite (s : State) (r half v : Nat) : State :=
  s.modRegion r (fun q => { q with seed :=
    if half = 0 then q.seed / 18446744073709551616 * 18446744073709551616 + v
    else q.seed % 18446744073709551616 + v * 18446744073709551616 })

/-- The wafer a target lies on. -/
def targetWafer (t : RegTarget) : Nat :=
  match t with
  | .tile n _ _ _ => nameWafer n
  | .island i _ => i / 48
  | .port h _ => homeWafer h
  | .seed r _ => r / 256
  | .boot w => w

/-- In the safe state nothing takes a write but LC_REQ (21 R421). -/
def lcTarget (t : RegTarget) : Bool :=
  match t with
  | .island i off => i % 48 == 0 && off == 0x30300
  | _ => false

/-- REGISTER_WRITE. -/
def execRegisterWrite (target : RegTarget) (value : Nat) (s : State) : Host.Outcome State Fault Refusal :=
  let f := s.focus
  let v := value % 18446744073709551616
  .next (if (s.wafer (targetWafer target)).bootSafe && !lcTarget target then s
    else
      let t := match target with
        | .tile n size win off => tileNameWrite s n size (win % 16) (off % 1048576) v
        | .island i off => islandWrite s i off v
        | .port h entry => forwardWrite s h entry v
        | .seed r half => seedWrite s r half v
        | .boot _ => s
      { t with focus := f })

end Sys2Proof.Machine
end

