-- ==== Sys2Proof/Machine/Dispatch.lean ====
section
/-!
DEFINITION. The dispatch: one arm for each constructor of Instr, each a direct call of that instruction's meaning.
-/
namespace Sys2Proof.Machine

def exec (i : Instr) (s : State) : Host.Outcome State Fault Refusal :=
  match i with
  | .madd o => Sys2Proof.Machine.execMadd o s
  | .msub o => Sys2Proof.Machine.execMsub o s
  | .mand o => Sys2Proof.Machine.execMand o s
  | .mor o => Sys2Proof.Machine.execMor o s
  | .mxor o => Sys2Proof.Machine.execMxor o s
  | .msll o => Sys2Proof.Machine.execMsll o s
  | .msrl o => Sys2Proof.Machine.execMsrl o s
  | .msra o => Sys2Proof.Machine.execMsra o s
  | .mmin o => Sys2Proof.Machine.execMmin o s
  | .mmax o => Sys2Proof.Machine.execMmax o s
  | .mminu o => Sys2Proof.Machine.execMminu o s
  | .mmaxu o => Sys2Proof.Machine.execMmaxu o s
  | .mmov o => Sys2Proof.Machine.execMmov o s
  | .mfadd o => Sys2Proof.Machine.execMfadd o s
  | .mfmul o => Sys2Proof.Machine.execMfmul o s
  | .mfmax o => Sys2Proof.Machine.execMfmax o s
  | .send o => Sys2Proof.Machine.execSend o s
  | .sendv o => Sys2Proof.Machine.execSendv o s
  | .mvc o => Sys2Proof.Machine.execMvc o s
  | .qbind o => Sys2Proof.Machine.execQbind o s
  | .qfree o => Sys2Proof.Machine.execQfree o s
  | .qcount o => Sys2Proof.Machine.execQcount o s
  | .qpopv o => Sys2Proof.Machine.execQpopv o s
  | .tstamp o => Sys2Proof.Machine.execTstamp o s
  | .slotwait o => Sys2Proof.Machine.execSlotwait o s
  | .pwrhint o => Sys2Proof.Machine.execPwrhint o s
  | .lld o => Sys2Proof.Machine.execLld o s
  | .lst o => Sys2Proof.Machine.execLst o s
  | .lcrc o => Sys2Proof.Machine.execLcrc o s
  | .ldec o => Sys2Proof.Machine.execLdec o s
  | .lcvt o => Sys2Proof.Machine.execLcvt o s
  | .lcommit o => Sys2Proof.Machine.execLcommit o s
  | .ldrop o => Sys2Proof.Machine.execLdrop o s
  | .linfo o => Sys2Proof.Machine.execLinfo o s
  | .spawn o => Sys2Proof.Machine.execSpawn o s
  | .spawnt o => Sys2Proof.Machine.execSpawnt o s
  | .tend o => Sys2Proof.Machine.execTend o s
  | .jdec o => Sys2Proof.Machine.execJdec o s
  | .taskinfo o => Sys2Proof.Machine.execTaskinfo o s
  | .qwroot o => Sys2Proof.Machine.execQwroot o s
  | .qwait o => Sys2Proof.Machine.execQwait o s
  | .qwheld o => Sys2Proof.Machine.execQwheld o s
  | .qwret o => Sys2Proof.Machine.execQwret o s
  | .qwdone o => Sys2Proof.Machine.execQwdone o s
  | .barrive o => Sys2Proof.Machine.execBarrive o s
  | .bwait o => Sys2Proof.Machine.execBwait o s
  | .cwaitge o => Sys2Proof.Machine.execCwaitge o s
  | .ctest o => Sys2Proof.Machine.execCtest o s
  | .gjoin o => Sys2Proof.Machine.execGjoin o s
  | .gleave o => Sys2Proof.Machine.execGleave o s
  | .grejoin o => Sys2Proof.Machine.execGrejoin o s
  | .gsync o => Sys2Proof.Machine.execGsync o s
  | .ginfo o => Sys2Proof.Machine.execGinfo o s
  | .fencex sw pred succ scope => Sys2Proof.Machine.execFencex sw pred succ scope s
  | .lpset sw len rs1 => Sys2Proof.Machine.execLpset sw len rs1 s
  | .rep sw count mask step => Sys2Proof.Machine.execRep sw count mask step s
  | .rng64 o => Sys2Proof.Machine.execRng64 o s
  | .rngf o => Sys2Proof.Machine.execRngf o s
  | .rngv o => Sys2Proof.Machine.execRngv o s
  | .rngjump o => Sys2Proof.Machine.execRngjump o s
  | .npenter o => Sys2Proof.Machine.execNpenter o s
  | .npexit o => Sys2Proof.Machine.execNpexit o s
  | .slice o => Sys2Proof.Machine.execSlice o s
  | .errinfo o => Sys2Proof.Machine.execErrinfo o s
  | .vadd o => Sys2Proof.Machine.execVadd o s
  | .vsub o => Sys2Proof.Machine.execVsub o s
  | .vmul o => Sys2Proof.Machine.execVmul o s
  | .vfma o => Sys2Proof.Machine.execVfma o s
  | .vmin o => Sys2Proof.Machine.execVmin o s
  | .vmax o => Sys2Proof.Machine.execVmax o s
  | .vbit o => Sys2Proof.Machine.execVbit o s
  | .vshift o => Sys2Proof.Machine.execVshift o s
  | .vcmp o => Sys2Proof.Machine.execVcmp o s
  | .vsel o => Sys2Proof.Machine.execVsel o s
  | .vld o => Sys2Proof.Machine.execVld o s
  | .vst o => Sys2Proof.Machine.execVst o s
  | .vgath o => Sys2Proof.Machine.execVgath o s
  | .vscat o => Sys2Proof.Machine.execVscat o s
  | .vneg o => Sys2Proof.Machine.execVneg o s
  | .vabs o => Sys2Proof.Machine.execVabs o s
  | .vmov o => Sys2Proof.Machine.execVmov o s
  | .vsplatx o => Sys2Proof.Machine.execVsplatx o s
  | .vsplatf o => Sys2Proof.Machine.execVsplatf o s
  | .vextx o => Sys2Proof.Machine.execVextx o s
  | .vrcp o => Sys2Proof.Machine.execVrcp o s
  | .vrsqrt o => Sys2Proof.Machine.execVrsqrt o s
  | .vexp2 o => Sys2Proof.Machine.execVexp2 o s
  | .vlog2 o => Sys2Proof.Machine.execVlog2 o s
  | .vtanh o => Sys2Proof.Machine.execVtanh o s
  | .vsigm o => Sys2Proof.Machine.execVsigm o s
  | .vredsum o => Sys2Proof.Machine.execVredsum o s
  | .vredmax o => Sys2Proof.Machine.execVredmax o s
  | .vredmin o => Sys2Proof.Machine.execVredmin o s
  | .viota o => Sys2Proof.Machine.execViota o s
  | .vcvt sub o => Sys2Proof.Machine.execVcvt sub o s
  | .vcvtsr sub o => Sys2Proof.Machine.execVcvtsr sub o s
  | .vquery o => Sys2Proof.Machine.execVquery o s
  | .vperm o => Sys2Proof.Machine.execVperm o s
  | .pand o => Sys2Proof.Machine.execPand o s
  | .por o => Sys2Proof.Machine.execPor o s
  | .pxor o => Sys2Proof.Machine.execPxor o s
  | .pnot o => Sys2Proof.Machine.execPnot o s
  | .pcount o => Sys2Proof.Machine.execPcount o s
  | .pfirst o => Sys2Proof.Machine.execPfirst o s
  | .pwhilelt o => Sys2Proof.Machine.execPwhilelt o s
  | .mmaE4e4 o => Sys2Proof.Machine.execMmaE4e4 o s
  | .mmaE4e5 o => Sys2Proof.Machine.execMmaE4e5 o s
  | .mmaE5e4 o => Sys2Proof.Machine.execMmaE5e4 o s
  | .mmaE5e5 o => Sys2Proof.Machine.execMmaE5e5 o s
  | .mmaE4f6 o => Sys2Proof.Machine.execMmaE4f6 o s
  | .mmaE4f4 o => Sys2Proof.Machine.execMmaE4f4 o s
  | .mmaF4f4 o => Sys2Proof.Machine.execMmaF4f4 o s
  | .mmaBf o => Sys2Proof.Machine.execMmaBf o s
  | .mmaI8 o => Sys2Proof.Machine.execMmaI8 o s
  | .mconv o => Sys2Proof.Machine.execMconv o s
  | .maccZero o => Sys2Proof.Machine.execMaccZero o s
  | .maccSt o => Sys2Proof.Machine.execMaccSt o s
  | .maccStp o => Sys2Proof.Machine.execMaccStp o s
  | .maccLdp o => Sys2Proof.Machine.execMaccLdp o s
  | .maccRow o => Sys2Proof.Machine.execMaccRow o s
  | .cqpush o => Sys2Proof.Machine.execCqpush o s
  | .cqtry o => Sys2Proof.Machine.execCqtry o s
  | .cqtryProbe o => Sys2Proof.Machine.execCqtryProbe o s
  | .cqctlFree o => Sys2Proof.Machine.execCqctlFree o s
  | .cqctlWait o => Sys2Proof.Machine.execCqctlWait o s
  | .mprog o => Sys2Proof.Machine.execMprog o s
  | .load op rd rs1 imm => Sys2Proof.Machine.execLoad op rd rs1 imm s
  | .store op rs1 rs2 imm => Sys2Proof.Machine.execStore op rs1 rs2 imm s
  | .amo op dw aq rl rd rs1 rs2 => Sys2Proof.Machine.execAmo op dw aq rl rd rs1 rs2 s
  | .lr dw aq rl rd rs1 => Sys2Proof.Machine.execLr dw aq rl rd rs1 s
  | .sc dw aq rl rd rs1 rs2 => Sys2Proof.Machine.execSc dw aq rl rd rs1 rs2 s
  | .fence fm pred succ rd rs1 => Sys2Proof.Machine.execFence fm pred succ rd rs1 s
  | .fenceTso rd rs1 => Sys2Proof.Machine.execFenceTso rd rs1 s
  | .fenceI rd rs1 imm => Sys2Proof.Machine.execFenceI rd rs1 imm s
  | .csrAccess o => Sys2Proof.Machine.execCsrAccess o s
  | .controlTransfer op rd rs1 rs2 imm => Sys2Proof.Machine.execControlTransfer op rd rs1 rs2 imm s
  | .integerOp op rd rs1 rs2 imm => Sys2Proof.Machine.execIntegerOp op rd rs1 rs2 imm s
  | .fpOp op rm rd rs1 rs2 rs3 => Sys2Proof.Machine.execFpOp op rm rd rs1 rs2 rs3 s
  | .matrixRowCommit parity => Sys2Proof.Machine.execMatrixRowCommit parity s
  | .islandThreadStart code => Sys2Proof.Machine.execIslandThreadStart code s
  | .islandLaunch d0 d1 d2 => Sys2Proof.Machine.execIslandLaunch d0 d1 d2 s
  | .messageRoute port vc esc => Sys2Proof.Machine.execMessageRoute port vc esc s
  | .flitCrcReplay port => Sys2Proof.Machine.execFlitCrcReplay port s
  | .linkDown port => Sys2Proof.Machine.execLinkDown port s
  | .memoryRequest home => Sys2Proof.Machine.execMemoryRequest home s
  | .leavenReturn a => Sys2Proof.Machine.execLeavenReturn a s
  | .borrowRequest a => Sys2Proof.Machine.execBorrowRequest a s
  | .joinDecrement home => Sys2Proof.Machine.execJoinDecrement home s
  | .barrierArrival home => Sys2Proof.Machine.execBarrierArrival home s
  | .domainAllocationRequest island => Sys2Proof.Machine.execDomainAllocationRequest island s
  | .openFile result => Sys2Proof.Machine.execOpenFile result s
  | .readFile data => Sys2Proof.Machine.execReadFile data s
  | .writeFile written => Sys2Proof.Machine.execWriteFile written s
  | .registerWindowAccess home => Sys2Proof.Machine.execRegisterWindowAccess home s
  | .streamWindowStore home => Sys2Proof.Machine.execStreamWindowStore home s
  | .accumulatorWindowAccess home => Sys2Proof.Machine.execAccumulatorWindowAccess home s
  | .copyClaim home => Sys2Proof.Machine.execCopyClaim home s
  | .copyData home => Sys2Proof.Machine.execCopyData home s
  | .copyIncrement home => Sys2Proof.Machine.execCopyIncrement home s
  | .translationWalk index => Sys2Proof.Machine.execTranslationWalk index s
  | .wxlatInvGo island value => Sys2Proof.Machine.execWxlatInvGo island value s
  | .tileInvalidation island tile => Sys2Proof.Machine.execTileInvalidation island tile s
  | .invalidationDone island => Sys2Proof.Machine.execInvalidationDone island s
  | .wxlatInvDoneClear island => Sys2Proof.Machine.execWxlatInvDoneClear island s
  | .dispatchDecision cluster => Sys2Proof.Machine.execDispatchDecision cluster s
  | .preemptDecision cluster => Sys2Proof.Machine.execPreemptDecision cluster s
  | .faultDecision cluster => Sys2Proof.Machine.execFaultDecision cluster s
  | .timerDecision cluster => Sys2Proof.Machine.execTimerDecision cluster s
  | .decisionOverrun cluster => Sys2Proof.Machine.execDecisionOverrun cluster s
  | .timerEvent cluster => Sys2Proof.Machine.execTimerEvent cluster s
  | .ageOverride cluster => Sys2Proof.Machine.execAgeOverride cluster s
  | .recipeCommit region value => Sys2Proof.Machine.execRecipeCommit region value s
  | .recipePrepare cluster => Sys2Proof.Machine.execRecipePrepare cluster s
  | .recipeGo region => Sys2Proof.Machine.execRecipeGo region s
  | .recipeSwitch cluster => Sys2Proof.Machine.execRecipeSwitch cluster s
  | .recipeCtlClear cluster value => Sys2Proof.Machine.execRecipeCtlClear cluster value s
  | .hangWindowExpiry region => Sys2Proof.Machine.execHangWindowExpiry region s
  | .accessTimeout id => Sys2Proof.Machine.execAccessTimeout id s
  | .tileRepair readable => Sys2Proof.Machine.execTileRepair readable s
  | .scrubUncorrectable granule => Sys2Proof.Machine.execScrubUncorrectable granule s
  | .tenCtlLoad region => Sys2Proof.Machine.execTenCtlLoad region s
  | .tenCtlSave region => Sys2Proof.Machine.execTenCtlSave region s
  | .tenCtlTerminate region => Sys2Proof.Machine.execTenCtlTerminate region s
  | .sliceExpiry region => Sys2Proof.Machine.execSliceExpiry region s
  | .drainComplete region => Sys2Proof.Machine.execDrainComplete region s
  | .drainTimeout region => Sys2Proof.Machine.execDrainTimeout region s
  | .vfReset vf => Sys2Proof.Machine.execVfReset vf s
  | .hostHotReset wafer link selfTest => Sys2Proof.Machine.execHostHotReset wafer link selfTest s
  | .sliceMoveStart home entry chunk target => Sys2Proof.Machine.execSliceMoveStart home entry chunk target s
  | .sliceMoveLine home entry => Sys2Proof.Machine.execSliceMoveLine home entry s
  | .forwardedAccess home => Sys2Proof.Machine.execForwardedAccess home s
  | .clockSourceSwitch port => Sys2Proof.Machine.execClockSourceSwitch port s
  | .proofingPass fails => Sys2Proof.Machine.execProofingPass fails s
  | .waferAdvance wafer => Sys2Proof.Machine.execWaferAdvance wafer s
  | .clusFreqWrite cluster value => Sys2Proof.Machine.execClusFreqWrite cluster value s
  | .railCtlWrite island value => Sys2Proof.Machine.execRailCtlWrite island value s
  | .railChangeComplete island => Sys2Proof.Machine.execRailChangeComplete island s
  | .unitCold matrix => Sys2Proof.Machine.execUnitCold matrix s
  | .gtSavedWrite region value => Sys2Proof.Machine.execGtSavedWrite region value s
  | .nvmeSubmissionDoorbell island queue => Sys2Proof.Machine.execNvmeSubmissionDoorbell island queue s
  | .nvmeCompletionDoorbell island queue => Sys2Proof.Machine.execNvmeCompletionDoorbell island queue s
  | .nvmeControllerCompletion island queue status data => Sys2Proof.Machine.execNvmeControllerCompletion island queue status data s
  | .oxsorFrame src dst => Sys2Proof.Machine.execOxsorFrame src dst s
  | .oxsorPathDown src dst => Sys2Proof.Machine.execOxsorPathDown src dst s
  | .powerOn wafer selfTest => Sys2Proof.Machine.execPowerOn wafer selfTest s
  | .managementPortReset wafer selfTest => Sys2Proof.Machine.execManagementPortReset wafer selfTest s
  | .lcProvision wafer ownerKey vendorKey => Sys2Proof.Machine.execLcProvision wafer ownerKey vendorKey s
  | .lcReqSecured wafer tokenAt => Sys2Proof.Machine.execLcReqSecured wafer tokenAt s
  | .lcReqDebugOpen wafer tokenAt => Sys2Proof.Machine.execLcReqDebugOpen wafer tokenAt s
  | .lcReqReturn wafer tokenAt => Sys2Proof.Machine.execLcReqReturn wafer tokenAt s
  | .lcReqRetired wafer tokenAt => Sys2Proof.Machine.execLcReqRetired wafer tokenAt s
  | .attestationQuote wafer nonce => Sys2Proof.Machine.execAttestationQuote wafer nonce s
  | .dbgEnSet region => Sys2Proof.Machine.execDbgEnSet region s
  | .dbgEnClear region => Sys2Proof.Machine.execDbgEnClear region s
  | .dbgHalt region => Sys2Proof.Machine.execDbgHalt region s
  | .dbgGrant region grant => Sys2Proof.Machine.execDbgGrant region grant s
  | .errwordRead o => Sys2Proof.Machine.execErrwordRead o s
  | .qwdomainWrite o => Sys2Proof.Machine.execQwdomainWrite o s
  | .qbindCsrWrite o => Sys2Proof.Machine.execQbindCsrWrite o s
  | .fxflagsAccess o => Sys2Proof.Machine.execFxflagsAccess o s
  | .linkStatRead port => Sys2Proof.Machine.execLinkStatRead port s
  | .npovrRead region => Sys2Proof.Machine.execNpovrRead region s
  | .proofStatRead island => Sys2Proof.Machine.execProofStatRead island s
  | .proofCntRead island => Sys2Proof.Machine.execProofCntRead island s
  | .curStepLimitRead cluster => Sys2Proof.Machine.execCurStepLimitRead cluster s
  | .registerWrite target value => Sys2Proof.Machine.execRegisterWrite target value s
  | .illegalInstruction word => Sys2Proof.Machine.execIllegalInstruction word s
  | .domainStateWrite region domain value => Sys2Proof.Machine.execDomainStateWrite region domain value s
  | .routeOvrWrite entry value => Sys2Proof.Machine.execRouteOvrWrite entry value s
  | .placementImageLoad region origin ports image => Sys2Proof.Machine.execPlacementImageLoad region origin ports image s
  | .hostWindowAccess wafer pa len write => Sys2Proof.Machine.execHostWindowAccess wafer pa len write s
  | .oxsorRetransmit src dst => Sys2Proof.Machine.execOxsorRetransmit src dst s
  | .ecall => Sys2Proof.Machine.execEcall s
  | .ebreak => Sys2Proof.Machine.execEbreak s
  | .wfi => Sys2Proof.Machine.execWfi s
  | .longLatencyParkResume => Sys2Proof.Machine.execLongLatencyParkResume s
  | .portStreamWake => Sys2Proof.Machine.execPortStreamWake s
  | .wfiWake => Sys2Proof.Machine.execWfiWake s
  | .slotwaitBoundary => Sys2Proof.Machine.execSlotwaitBoundary s
  | .grejoinReunion => Sys2Proof.Machine.execGrejoinReunion s
  | .gsyncRelease => Sys2Proof.Machine.execGsyncRelease s
  | .matrixEntryStart => Sys2Proof.Machine.execMatrixEntryStart s
  | .tileReset => Sys2Proof.Machine.execTileReset s
  | .islandStop => Sys2Proof.Machine.execIslandStop s
  | .islandResume => Sys2Proof.Machine.execIslandResume s
  | .islandTerminateTask => Sys2Proof.Machine.execIslandTerminateTask s
  | .portWord => Sys2Proof.Machine.execPortWord s
  | .streamData => Sys2Proof.Machine.execStreamData s
  | .taskRecord => Sys2Proof.Machine.execTaskRecord s
  | .memoryResponse => Sys2Proof.Machine.execMemoryResponse s
  | .errorMessage => Sys2Proof.Machine.execErrorMessage s
  | .borrowGrant => Sys2Proof.Machine.execBorrowGrant s
  | .borrowRefusal => Sys2Proof.Machine.execBorrowRefusal s
  | .watchWake => Sys2Proof.Machine.execWatchWake s
  | .watchRetry => Sys2Proof.Machine.execWatchRetry s
  | .quiescenceWake => Sys2Proof.Machine.execQuiescenceWake s
  | .syscallReply => Sys2Proof.Machine.execSyscallReply s
  | .domainAllocationReply => Sys2Proof.Machine.execDomainAllocationReply s
  | .syscallNop => Sys2Proof.Machine.execSyscallNop s
  | .closeFile => Sys2Proof.Machine.execCloseFile s
  | .nvqopen => Sys2Proof.Machine.execNvqopen s
  | .nvqclose => Sys2Proof.Machine.execNvqclose s
  | .exitCall => Sys2Proof.Machine.execExitCall s
  | .dbggrant => Sys2Proof.Machine.execDbggrant s
  | .copyUnitIssue => Sys2Proof.Machine.execCopyUnitIssue s
  | .landingPacketArrival => Sys2Proof.Machine.execLandingPacketArrival s
  | .handlerStart => Sys2Proof.Machine.execHandlerStart s
  | .handlerLimit => Sys2Proof.Machine.execHandlerLimit s
  | .copyRequestComplete => Sys2Proof.Machine.execCopyRequestComplete s
  | .copyIncrementAck => Sys2Proof.Machine.execCopyIncrementAck s
  | .sliceEndEvent => Sys2Proof.Machine.execSliceEndEvent s
  | .evictionSave => Sys2Proof.Machine.execEvictionSave s
  | .tileQuarantine => Sys2Proof.Machine.execTileQuarantine s
  | .routerParityError => Sys2Proof.Machine.execRouterParityError s
  | .tileSilent => Sys2Proof.Machine.execTileSilent s
  | .faultReportRearm => Sys2Proof.Machine.execFaultReportRearm s
  | .npWatchdog => Sys2Proof.Machine.execNpWatchdog s
  | .droopAlarm => Sys2Proof.Machine.execDroopAlarm s
  | .wakeAdmission => Sys2Proof.Machine.execWakeAdmission s
  | .debugSingleStep => Sys2Proof.Machine.execDebugSingleStep s
  | .debugResume => Sys2Proof.Machine.execDebugResume s
  | .breakpointHalt => Sys2Proof.Machine.execBreakpointHalt s
  | .landStatClear => Sys2Proof.Machine.execLandStatClear s
  | .landCntRead => Sys2Proof.Machine.execLandCntRead s
  | .droopCntRead => Sys2Proof.Machine.execDroopCntRead s
  | .clkSrcRead => Sys2Proof.Machine.execClkSrcRead s
  | .npLimitOverrun => Sys2Proof.Machine.execNpLimitOverrun s

end Sys2Proof.Machine
end

