-- ==== Sys2Proof/Machine/SystemReads.lean ====
section
/-!
DEFINITION. What island reads over the system path answer (01 R17, 12 R269): a tile's windows, its control window, the registers of its
cluster, and the island's system window (20 R408). Reserved offsets read 0. A register whose read clears it has a step of its own, which
answers the same value and clears.
-/
namespace Sys2Proof.Machine

/-! The tables of the wafer (18 R388) -/

/-- Does no tile answer at a coordinate? Before its boot, none of a wafer does. -/
def deadCoord (s : State) (g : Nat) : Bool :=
  !(s.wafer (waferOf g)).locked || islandSlot (clusterOf g) || (s.tile g).c.hole || (s.tile g).c.dead

/-- TOPO of a cluster slot, which the boot writes (21 R420). BOOTGEN is the first generation, 1. -/
def topoWord (s : State) (c : Nat) : Nat :=
  let k := s.cluster c
  let isl := islandSlot c
  if !(s.wafer (c / 3072)).locked then 0
  else bit (!isl) 63 + bit isl 62 + bit k.off 61 + bit k.spareRow.isSome 60 + k.defRow % 16 * 2 ^ 56 +
  (if isl then 0 else ((clusterTiles c).filter (deadCoord s)).length * 2 ^ 48) + fieldOf c * 2 ^ 40 +
  bit (!isl) 0

/-- GEN_MAP of a coordinate. -/
def genMapByte (s : State) (g : Nat) : Nat := if deadCoord s g then 0 else s.genOf g

/-! A tile's control window -/

/-- A precise report as the 96 bytes of its latch (16 R341). -/
def reportWords (r : FaultRep) : List Nat :=
  [bit r.v 63 + bit r.eng 62 + bit r.gang 61 + bit r.det 60 + r.index % 16 * 2 ^ 56 + bit r.np 55 + bit r.rep 54 + r.repdone % 64 * 2 ^ 48 +
    r.cause % 256 * 2 ^ 40 + r.sub % 256 * 2 ^ 32 + r.region % 256 * 2 ^ 24 + r.thread % 4 * 2 ^ 16 + r.seq % 65536,
   r.name, r.pc, r.insn, r.addr, r.time, r.held, r.stoppc] ++ (List.range 4).map (fun n => r.wait.getD n 0)

/-- The generator and pc of a thread at the offsets of `threadWrite`. -/
def threadWord (t : Thread) (n : Nat) : Nat :=
  match n with
  | 0 => t.r.pc.toNat
  | 1 => t.r.s0.toNat
  | 2 => t.r.s1.toNat
  | _ => 0

/-- The cluster's registers (08 R214, 19 R396), its recipe images, domain table, wait table and access table. -/
def clusterWord (s : State) (c off : Nat) : Nat :=
  let k := s.cluster c
  match off with
  | 0x4000 => recipeCtl k
  | 0x4008 => k.ageLimit
  | 0x4010 => k.ageOvr * 4294967296 + k.overruns
  | 0x4018 => k.timerCfg
  | 0x4020 => k.taskSlice
  | 0x4028 => k.qspill
  | 0xB000 => k.eff * 65536 + k.mhz
  | 0xB008 => k.stalls * 4294967296 + k.stepN
  | off =>
    match slotOf off 0x4040 16, slotOf off 0x4100 8, slotOf off 0x5000 256, slotOf off 0xC000 256 with
    | some n, _, _, _ => k.budget.look n 0
    | _, some n, _, _ => k.scratch.look n 0
    | _, _, some n, _ => k.lright.look n 0
    | _, _, _, some n => k.access.look n 0
    | _, _, _, _ =>
      match slotOf off 0x4200 128, slotOf off 0x4600 2, slotOf off 0x6000 128, slotOf off 0x8000 1536 with
      | some n, _, _, _ => (List.range 4).foldr (fun j a => a * 65536 + k.imgWord (n / 64) (4 * (n % 64) + j) % 65536) 0
      | _, some n, _, _ => k.ent.look n 0
      | _, _, some n, _ => (domainWords (s.domain c (n / 2))).getD (n % 2) 0
      | _, _, _, some n =>
        let g := tileIn c (n / 8)
        (waitWords g (n / 4 % 2) (s.thread g (n / 4 % 2)).run.wait).getD (n % 4) 0
      | _, _, _, _ => 0

/-- A doubleword of a tile's control window. -/
def controlWord (s : State) (g off : Nat) : Nat :=
  let t := s.tile g
  match off with
  | 0x1400 => landStatWord t.e
  | 0x1408 => landCntWord t.e
  | 0x1800 => clkSrcWord s g
  | 0x1900 => t.c.droopThr
  | 0x1908 => t.c.droopCnt
  | 0x1910 => t.c.droopLast
  | off =>
    if 0x4000 ≤ off then clusterWord s (clusterOf g) off
    else if 0x2000 ≤ off ∧ off < 0x2300 then threadWord (t.thread ((off - 0x2000) / 256)) (off % 256 / 8)
    else if 0x1500 ≤ off ∧ off < 0x1680 then (reportWords (t.c.reps.look ((off - 0x1500) / 128) {})).getD (off % 128 / 8) 0
    else
      match slotOf off 0x1000 16, slotOf off 0x1100 64, slotOf off 0x1300 4, slotOf off 0x1820 4 with
      | some n, _, _, _ => ((s.ovrOf g).look n 0).toNat
      | _, some n, _, _ => s.nameRetOf g n
      | _, _, some n, _ => linkStatWord t.rt n
      | _, _, _, some n => linkDlyWord s g n
      | _, _, _, _ =>
        match slotOf off 0x1A00 4, slotOf off 0x1C00 128 with
        | some n, _ => (t.c.brk.look n 0).toNat
        | _, some n => ((t.thread (n / 64)).run.dbg.trace).getD (n % 64) 0
        | _, _ => 0

/-- A doubleword at a window and offset of a tile: windows 7 and 8 and what lies past a window's registers hold nothing to read. -/
def tileWord (s : State) (g win off : Nat) : Nat :=
  if win = 0 then (if off + 8 ≤ 131072 then s.loadAt g off 8 else 0)
  else if win ≤ 6 then (if off < winEnd win then readWindow s g win off else 0)
  else if win = 15 then controlWord s g off
  else 0

/-! System windows -/

/-- A tenant block (17 R357). -/
def tenantWord (q : Region) (off : Nat) : Nat :=
  match off with
  | 0x00 => bit q.busy 63 + q.ten % 8 * 2 ^ 60
  | 0x08 => q.ctxBase
  | 0x10 => q.sliceLen
  | 0x18 => q.npLimit
  | 0x20 => q.debt
  | 0x28 => q.npovr
  | 0x30 => q.swapBase
  | 0x38 => q.swapN
  | _ => 0

/-- The registers of a region, which other islands than the policing one read as 0. -/
def regionWord (s : State) (i off : Nat) : Nat :=
  let at_ (id : Nat) (f : Region → Nat) : Nat :=
    let r := i / 48 * 256 + id
    if s.policing r i = i then f (s.region r) else 0
  match slotOf off 0x21000 256, slotOf off 0x28000 256, slotOf off 0x29000 256, slotOf off 0x2A000 256 with
  | some id, _, _, _ => at_ id (fun q => q.xlatMode * 2 ^ 60 + q.asid * 2 ^ 44 + q.ppn)
  | _, some id, _, _ => at_ id (fun q => bit q.commitPend 63 + bit q.commitFail 62 + q.commitSlot * 256 + q.commitRegion)
  | _, _, some id, _ => at_ id (fun q => q.hangWindow)
  | _, _, _, some id => at_ id (fun q => bit q.dbgEn 63 + bit q.dbgAllowed 1)
  | _, _, _, _ =>
    if 0x22000 ≤ off ∧ off < 0x26000 then at_ ((off - 0x22000) / 64) (fun q => tenantWord q (off % 64))
    else if 0x26000 ≤ off ∧ off < 0x27000 then
      at_ ((off - 0x26000) / 16) (fun q => if off % 16 = 0 then q.gtOff else if off % 16 = 8 then q.gtSaved else 0)
    else 0

/-- The registers of a wafer's island 0. -/
def bootWord (s : State) (w off : Nat) : Nat :=
  match off with
  | 0x30000 => bit (s.wafer w).hostrst 0
  | 0x30400 => (s.wafer w).sysCfg
  | 0x30408 => (s.wafer w).wafers
  | off => match slotOf off 0x30100 64 with
    | some n => (s.island (w * 48)).vfBind.look n 0
    | none => 0

/-- The tables that every island of a wafer shows. -/
def waferWord (s : State) (w off : Nat) : Nat :=
  match slotOf off 0x40000 3072 with
  | some n => topoWord s (w * 3072 + n)
  | none =>
    if 0x80000 ≤ off ∧ off < 0xC0000 then (s.home (edgeHome w ((off - 0x80000) / 0x800))).access.look (off % 0x800 / 8) 0
    else if 0xC0000 ≤ off ∧ off < 0xD8000 then (s.home (islandHome (w * 48 + (off - 0xC0000) / 0x800))).access.look (off % 0x800 / 8) 0
    else if 0x100000 ≤ off ∧ off < 0x190000 then
      (List.range 8).foldr (fun j a => a * 256 + genMapByte s (w * waferTiles + (off - 0x100000 + j))) 0
    else 0

/-- A doubleword of an island's system window. -/
def islandWord (s : State) (i off : Nat) : Nat :=
  let k := s.island i
  match off with
  | 0x20000 => k.invVa
  | 0x20008 => k.invN
  | 0x20010 => wxlatInvWord k
  | 0x31000 => bit k.proofEn 63 + k.proofPeriod
  | 0x31008 => k.proofFails * 281474976710656 + k.proofLast
  | 0x31010 => k.proofCnt
  | 0x32000 =>
    let mv := if k.railBusy then k.railNext else k.railMv
    bit k.railBusy 63 + fmaxOf mv * 4294967296 + mv
  | off =>
    match slotOf off 0x1000 16 with
    | some n => (k.ovr.look n 0).toNat
    | none =>
      if 0x21000 ≤ off ∧ off < 0x30000 then regionWord s i off
      else if 0x30000 ≤ off ∧ off < 0x30410 then (if i % 48 = 0 then bootWord s (i / 48) off else 0)
      else waferWord s (i / 48) off

/-- A half of REGION_SEED, and the two doublewords of a forwarding entry. -/
def seedWord (q : Region) (half : Nat) : Nat := if half = 0 then q.seed % 18446744073709551616 else q.seed / 18446744073709551616
def forwardWord (f : Forward) (n : Nat) : Nat :=
  if n = 0 then bit f.v 63 + bit f.fwd 62 + f.chunk % 32768 * 2097152 else f.target

/-- A read on the system path: the bytes asked for of the doubleword that holds them. Nothing answers at a stale name, for an access that
waits, nor on a wafer in the safe state but BOOT_STAT (12 R269, 21 R421). -/
def systemRead (s : State) (target : RegTarget) : Option Nat :=
  match target with
  | .boot w => some (bootStat s w)
  | target =>
  if (s.wafer (targetWafer target)).bootSafe then none
  else match target with
    | .tile n size win off =>
      if s.staleName (nameWafer n) n || s.systemWaits (nameTile n) (win % 16) (off % 1048576) size then none
      else some (tileWord s (nameTile n) (win % 16) (off % 1048576 / 8 * 8) / 256 ^ (off % 8) % 256 ^ size)
    | .island i off => some (islandWord s i off)
    | .port h entry => if isEdgeHome h && decide (entry < 64) then some (forwardWord ((s.home h).forwards.look entry {}) 0) else none
    | .seed r half => some (seedWord (s.region r) half)
    | .boot w => some (bootStat s w)

/-- The read of a register that it clears, by its own step. -/
def clearingRead (s : State) (target : RegTarget) : Option (Host.Outcome State Fault Refusal) :=
  match target with
  | .tile n _ win off =>
    let t := s.lookAt (nameTile n) s.focus.thread
    if win % 16 ≠ 15 then none
    else match off % 1048576 / 8 * 8 with
      | 0x1408 => some (execLandCntRead t)
      | 0x1800 => some (execClkSrcRead t)
      | 0x1908 => some (execDroopCntRead t)
      | 0xB008 => some (execCurStepLimitRead (clusterOf (nameTile n)) t)
      | off => (slotOf off 0x1300 4).map (fun p => execLinkStatRead p t)
  | .island i off => match off with
    | 0x31008 => some (execProofStatRead i s)
    | 0x31010 => some (execProofCntRead i s)
    | off =>
      let r := i / 48 * 256 + (off - 0x22000) / 64
      if 0x22000 ≤ off ∧ off < 0x26000 ∧ off % 64 = 0x28 ∧ s.policing r i = i then some (execNpovrRead r s) else none
  | _ => none

/-- A read by an island, the host or the management port, with its answer in `ioRead`; one that nothing answers leaves everything as it is. -/
def readRegister (s : State) (target : RegTarget) : Host.Outcome State Fault Refusal :=
  match systemRead s target with
  | none => .next s
  | some v => match clearingRead s target with
    | some (.next t) => .next { t with ioRead := v, focus := s.focus }
    | _ => .next { s with ioRead := v }

end Sys2Proof.Machine
end

