-- ==== Sys2Proof/Machine/Step.lean ====
section
/-!
DEFINITION. One step of the machine: the next move of the environment's agenda, or, with none, the thread in focus. A thread that
cannot go on, and a step of an agent that has nothing to do, leave the state as it is.
-/
namespace Sys2Proof.Machine

/-- The thread in focus executes one instruction, if it can issue one. -/
def runFocus (s : State) : Host.Outcome State Fault Refusal :=
  match issue s with
  | .wait s' => .next s'
  | .go s' i => exec i s'

/-- One move. Only steps without an encoding are events. -/
def doMove (s : State) (m : Move) : Host.Outcome State Fault Refusal :=
  match m with
  | .run g h => runFocus (s.lookAt g h)
  | .event g h i => if isEvent i then exec i (s.lookAt g h) else .next s
  | .elapse ns => .next (elapse s ns)
  | .drop g n => .next (s.dropXlat g n)
  | .corrected g => .next (s.countCorrected g)
  | .islandCorrected i => .next (s.modIsland i (fun k => { k with corrected := k.corrected + 1 }))
  | .read t => readRegister s t
  | .hostRange w r l => .next (s.openHost w r l)
  | .assignVf w v l => .next (s.assignVf w v l)
  | .mailbox w f off n d => .next (s.useMailbox w f off n d)

def step (s : State) : Host.Outcome State Fault Refusal :=
  match s.agenda with
  | [] => runFocus s
  | m :: rest => doMove { s with agenda := rest } m

/-- The state with an instruction placed where the thread in focus fetches next. -/
def State.withFetchWord (s : State) (nbits w : Nat) : State := placeWord s (w % 2 ^ nbits)

end Sys2Proof.Machine
end

