-- ==== Sys2Proof/Safety.lean ====
section
/-!
DEFINITION. The terms statements use: what a safe run is, what a step leaves alone, and how an instruction ends.
-/
namespace Sys2Proof

/-- The step goes on. -/
def goesOn (s : Machine.State) : Prop := ∃ t, Machine.step s = .next t

/-- The memory of a state is in canonical form. -/
def memOk (s : Machine.State) : Prop := s.mem.wf = true

/-- `n` steps from a state all go on and keep the canonical form. -/
def safeFor : Nat → Machine.State → Prop
  | 0, s => memOk s
  | n + 1, s => memOk s ∧ ∃ t, Machine.step s = .next t ∧ safeFor n t

namespace Machine

/-- What no bookkeeping of the hardware touches: the registers of every thread (x, f, pc, every control and status register), the
registers of every tile (v, p, accumulators, lhtbase), every fault report latch, all of memory, the wafers' own registers and the time
base. -/
structure Same (s t : State) : Prop where
  focus : t.focus = s.focus
  thr : ∀ g h, (t.thread g h).r = (s.thread g h).r
  tregs : ∀ g, (t.tile g).r = (s.tile g).r
  reps : ∀ g, (t.tile g).c.reps = (s.tile g).c.reps
  mem : t.mem = s.mem
  wafers : t.wafers = s.wafers
  now : t.now = s.now

/-- The step of one thread: its own registers are `r` afterwards, its tile's registers `tr`, memory `m`; the registers of every other
thread and tile, every fault report latch, the wafers and the time base are as before. -/
structure Done (s t : State) (r : Regs) (tr : TileRegs) (m : Memory) : Prop where
  focus : t.focus = s.focus
  mine : t.me.r = r
  others : ∀ g h, ¬(g = s.focus.tile ∧ h = s.focus.thread) → (t.thread g h).r = (s.thread g h).r
  mytile : t.myTile.r = tr
  tiles : ∀ g, g ≠ s.focus.tile → (t.tile g).r = (s.tile g).r
  reps : ∀ g, (t.tile g).c.reps = (s.tile g).c.reps
  mem : t.mem = m
  wafers : t.wafers = s.wafers
  now : t.now = s.now

/-- One more instruction has completed (01 R13). -/
def Regs.counted (r : Regs) : Regs := { r with instret := (r.instret + 1) % 18446744073709551616 }

/-- The registers of a thread after an instruction that completes in sequence: pc and loop registers as the loop and the repeat in
progress lead them (04 R82, R86), one more instruction counted, the others as they stand. -/
def Regs.after (r : Regs) (rep : Option RepRun) : Regs := (Thread.seqNext { r := r, run := { rep := rep } }).r.counted

/-- The registers of a thread after an instruction that transfers control to an offset of its scratchpad. -/
def Regs.jumped (r : Regs) (off : Nat) : Regs := { r with pc := pcWith r.pc off }.counted

/-- No trap of the thread waits for its next boundary (05 R106), and it owes no report of a stop with its gathering's leader (16 R349). -/
abbrev Run.clear (r : Run) : Prop := r.due = [] ∧ r.stop.report = none

/-- No switch point falls due at the end of the current instruction that would commit a long-latency write (01 R24): none is pending, or
the word carries S = 0 and no repeat is in progress; and no trap or report of the thread waits for that boundary. -/
def State.settled (s : State) (sbit : Bool) : Prop :=
  (s.me.run.pend = [] ∨ (sbit = false ∧ s.me.run.rep = none)) ∧ s.me.run.clear

/-- No stop is asked of the current thread, it is not being single-stepped and no trap of it waits: the end of its instruction does not stop
it. -/
def State.undisturbed (s : State) : Prop := s.me.run.stop = {} ∧ s.me.run.dbg.stepping = false ∧ s.me.run.due = []

/-- An access of `n` bytes at address `a` lies in the scratchpad of the current tile: path 0x01, the tile's current name, window 0, in
bounds and aligned (01 R18, 12 R263, R264). -/
structure State.ownBytes (s : State) (a n : Nat) : Prop where
  path : pathOf a = 1
  name : addrName a = s.nameOf s.focus.tile
  tile : nameTile (s.nameOf s.focus.tile) = s.focus.tile
  window : addrWin a = 0
  fits : addrOff a + n ≤ 131072
  aligned : a % n = 0

/-- Nothing holds an access of the current thread to own scratchpad bytes back: no acquire is outstanding (13 R285), no fence that it has
passed orders it after something that is not complete (13 R287), nothing waits at the tile's own home before it and no claim covers it
(13 R281, R291), and no queued matrix entry of t0 conflicts with it (06 R137). -/
structure State.ownFree (s : State) (off n : Nat) (write : Bool) : Prop where
  held : s.me.held = false
  fences : s.openFences s.focus.tile s.focus.thread = []
  ready : ownReady s s.focus.tile off n = true
  matrix : ∀ e ∈ s.myTile.e.mq, s.focus.thread = 0 →
    (∀ x ∈ e.writes, ¬(x.1 < off + n ∧ off < x.1 + x.2)) ∧ (write = true → ∀ x ∈ e.reads, ¬(x.1 < off + n ∧ off < x.1 + x.2))

/-- The island that takes the reports of a thread: that which polices the region of its task (17 R373). -/
def State.ringIsland (s : State) (g h : Nat) : Nat := s.policing (waferOf g * 256 + s.taskRegionId g h) (islandOf g)

/-- The current thread has taken a trap (16 R338, R341 to R343): it is STOPPED in the state it held, the report with the cause,
sub-cause, address, pc and word stands in its latch if that was free and goes to the ring of the island of its region, the tile is withheld, and no register of
any thread or tile and no byte of memory has changed. Other reports follow it in the ring only where the members of a gathering stop with
their leader (16 R349). -/
structure Trapped (s t : State) (cause sub addr : Nat) : Prop where
  focus : t.focus = s.focus
  thr : ∀ g h, (t.thread g h).r = (s.thread g h).r
  tregs : ∀ g, (t.tile g).r = (s.tile g).r
  mem : t.mem = s.mem
  stopped : t.me.run.ts = .stopped
  held : t.me.run.heldTs = s.me.run.ts
  withheld : t.myTile.c.stopped = true
  latch : (s.myTile.c.reps.look s.focus.thread {}).v = false →
    t.myTile.c.reps.look s.focus.thread {} = s.reportOf s.focus.tile s.focus.thread cause sub addr s.me.r.pc s.focus.word false s.me.repMark
  ring : ∃ l, (t.island (s.ringIsland s.focus.tile s.focus.thread)).ring = (s.island (s.ringIsland s.focus.tile s.focus.thread)).ring ++
      s.reportOf s.focus.tile s.focus.thread cause sub addr s.me.r.pc s.focus.word false s.me.repMark :: l ∧
    (s.me.run.gather.role ≠ .leader → (∀ h, (s.thread s.focus.tile h).run.stop.report = none) → l = [])

/-- The current thread can take a trap of its own at its instruction: it is a program thread (t0 or t1) that runs, and it does not stand
within a vector access (05 R106) or a fence's order. -/
structure State.canTrap (s : State) : Prop where
  thread : s.focus.thread ≤ 1
  running : s.me.run.ts = .running
  boundary : s.midway s.focus.tile s.focus.thread = false

/-- A message of home `h` is on its way: it stands in the input of its router, waits for room there where it is an answer or a control message, or
is, to the home itself and ejected at once, in its inbox (07 R152, R156). -/
def State.sent (t : State) (h vc dstHome kind : Nat) (body : Payload) : Prop :=
  ∃ m : Msg, (m ∈ (t.tile (homeRouter h)).rt.bufs.look (bufKey (inPort h) vc false) [] ∨ (14 ≤ vc ∧ m ∈ (t.home h).outbox) ∨ (dstHome = h ∧ m ∈ (t.home h).inbox)) ∧
    m.srcHome = h ∧ m.dstHome = dstHome ∧ m.vc = vc ∧ m.kind = kind ∧ m.body = body

/-- The router of home `h` passes messages for a name at a home, which is no port's name of generation 0 (20 R414), and a tile takes those that
it sends to itself (07 R168). -/
def State.passes (s : State) (h dst dstHome : Nat) : Prop :=
  (∀ m : Msg, m.dst = dst → m.dstHome = dstHome → s.firstCheck (homeRouter h) m = true) ∧
  ¬(isTileHome dstHome = true ∧ nameGen dst = 0 ∧ isEdgeHome (homeOfName dst) = true) ∧
  (dstHome = h → isTileHome h = true ∧ s.staleName (waferOf h) dst = false ∧ (s.tile h).rt.closed = false)

/-- The current thread sleeps with a wait-table entry that it has just posted (10 R254). -/
def State.sleepsWith (t : State) (kind addr value now : Nat) : Prop :=
  t.me.run.ts = .sleeping ∧ t.me.run.wait = some ⟨kind, addr, value, now⟩

/-- The instruction at which a sleeping thread stands, as it issues in the state `s'` when the thread runs. -/
def State.standsAt (s s' : State) (i : Instr) : Prop :=
  issue (s.modMe (fun t => t.modRun (fun r => { r with ts := .running }))) = .go s' i

/-- A step that writes registers of one thread only: those of thread `h` of tile `g` are `r` afterwards; every other thread's, every tile's
registers, memory, the wafers and the time base are as before. -/
structure Wrote (s t : State) (g h : Nat) (r : Regs) : Prop where
  mine : (t.thread g h).r = r
  others : ∀ g' h', ¬(g' = g ∧ h' = h) → (t.thread g' h').r = (s.thread g' h').r
  tregs : ∀ g', (t.tile g').r = (s.tile g').r
  mem : t.mem = s.mem
  wafers : t.wafers = s.wafers
  now : t.now = s.now

/-- The request that a home performs next: its message, the request, and the inbox without it; no forwarding entry covers its line. -/
def State.nextAt (s : State) (home : Nat) (m : Msg) (q : MemReq) (rest : List Msg) : Prop :=
  pickReq s home [] (s.home home).inbox = some (m, rest) ∧ m.body = .mem q ∧ forwardOf s home q.addr = none

/-- A home answers a request: a response with the value, whether the granule was poisoned, and `perf` at its performance (13 R281). -/
def State.answers (s t : State) (home : Nat) (m : Msg) (q : MemReq) (v : Nat) (poisoned : Bool) (at_ : Nat) : Prop :=
  s.passes home m.src m.srcHome → t.sent home 14 m.srcHome 4 (.resp q.id q.lane v poisoned at_)

/-- A report of a tile with a cause and sub-cause stands in the ring of the island that polices the report's region (17 R373). -/
def State.reported (t : State) (g cause sub : Nat) : Prop :=
  ∃ x ∈ (t.island (t.policing (waferOf g * 256 + x.region) (islandOf g))).ring, x.cause = cause ∧ x.sub = sub

/-- A request that the copy engine of a tile sends on its own: a claim, a source read or an increment (15 R316 to R318). -/
def engineReq (op : ReqOp) (addr size data id lane : Nat) (stream awaited : Bool) : MemReq :=
  { op := op, addr := addr, size := size, data := data, id := id, lane := lane, local_ := false, stream := stream, awaited := awaited }

/-- The port-form instructions with their operations (07 R171, R172). -/
def portForms (o : CP) : List (Instr × POp) :=
  [(.madd o, .add), (.msub o, .sub), (.mand o, .and), (.mor o, .or), (.mxor o, .xor), (.msll o, .sll), (.msrl o, .srl), (.msra o, .sra),
    (.mmin o, .min), (.mmax o, .max), (.mminu o, .minu), (.mmaxu o, .maxu), (.mmov o, .mov), (.mfadd o, .fadd), (.mfmul o, .fmul), (.mfmax o, .fmax)]

/-- An access of the current thread to place `p` has left it: it is outstanding with its destination, and its request is on its way, or
waits at the tile for room or behind a fence (13 R286, R287). A store to a stream window travels on its own VC (12 R268). -/
def State.requested (s t : State) (p : Place) (q : MemReq) (dst : OutDst) (aq : Bool) (cls : Nat) : Prop :=
  let g := s.focus.tile
  let q := { q with id := s.myTile.e.nextId }
  let vc := if toStream p then p.addr % 1048576 / 8 else 13
  let kind := if toStream p then 1 else 3
  (∃ o ∈ t.me.run.outs, o.id = q.id ∧ o.dst = dst ∧ o.aq = aq ∧ o.parts = [⟨p.home, cls, 0⟩]) ∧
  (isTileHome g = true → s.passes g p.dst p.home → t.sent g vc p.home kind (.mem q) ∨
    ∃ u ∈ t.myTile.e.unsent, u.msg.dstHome = p.home ∧ u.msg.srcHome = g ∧ u.msg.vc = vc ∧ u.msg.kind = kind ∧ u.msg.body = .mem q)

/-- The course of a scalar access of the current thread at any address (12 R263, R274 to R276, 13 R281, R285, R286): where it is not performed at
once at the own home it completes with its request on its way, changing no register but pc and loop registers and no byte; an address that
fails its checks traps with their cause, a read of a poisoned granule of the own home with 0x21 (16 R351); one without a translation entry asks
for a walk, and the instruction waits, as it does behind an acquire, behind a queued matrix entry of the same bytes (06 R137), and for room. -/
def State.accesses (s : State) (i : Instr) (a n : Nat) (k : WinKind) (sb : Bool) (q : Place → MemReq) (dst : OutDst) (aq : Bool)
    (cls : Nat → Place → Nat) : Prop :=
  let g := s.focus.tile
  let h := s.focus.thread
  let waits : Prop := s.me.run.clear → ∃ t, exec i s = .next t ∧ Same s t
  (s.me.held = true → waits) ∧
  (s.me.held = false →
    (∀ p, target s a n k = .place p → (k ≠ .store → p.home = g → poisonedAt s g p.addr n = false) →
      (mqConflict s p n k.isWrite = false → ownNow s g h n p (classOf a p k.cls) = false → s.roomToIssue g h = true → s.settled sb →
        ∃ t, exec i s = .next t ∧ Done s t (s.me.r.after s.me.run.rep) s.myTile.r s.mem ∧ (s.undisturbed → s.requested t p (q p) dst aq (cls a p))) ∧
      (mqConflict s p n k.isWrite = true ∨ (ownNow s g h n p (classOf a p k.cls) = false ∧ s.roomToIssue g h = false) → waits)) ∧
    (∀ p, target s a n k = .place p → k ≠ .store → p.home = g → poisonedAt s g p.addr n = true → s.canTrap →
      ∃ t, exec i s = .next t ∧ Trapped s t 0x21 0 (a / 8 * 8)) ∧
    (∀ c sub, target s a n k = .trap c sub → s.canTrap → ∃ t, exec i s = .next t ∧ Trapped s t c sub a) ∧
    (∀ kd, target s a n k = .walk kd → s.undisturbed → ∃ t, exec i s = .next t ∧ Same s t ∧ ⟨h, 0, a, kd, n⟩ ∈ t.myTile.e.walks))

/-- `n` outputs of a generator in order, and its state after them (04 R88). -/
def draws : Nat → Word64 → Word64 → List Word64 × Word64 × Word64
  | 0, a, b => ([], a, b)
  | n + 1, a, b =>
    let d := rngNext a b
    let e := draws n d.2.1 d.2.2
    (d.1 :: e.1, e.2)

/-- The flags of the active ones of `n` elements of `b` bytes, together (03 R57). -/
def flagsOf (n p b : Nat) (f : Nat → Flags) : Flags := ((List.range n).filter (active p b)).foldr (fun k a => (f k).or a) Flags.none

end Machine
end Sys2Proof
end

