-- ==== Sys2Proof/Certificates/Slice0/Obligations.lean ====
section
/-!
DEFINITION. The statements about the GW-1, from the numbered rules of its spec. `Done`, `Trapped`, `Same` and the other terms they are
stated in are defined in Sys2Proof/Safety.lean. Unless a statement says otherwise it holds for every state, those that no run reaches
among them; its hypotheses are on the state and the operands alone.
-/
open Sys2Proof Sys2Proof.Machine

/-! The base subset -/

/-- 02 R40, 01 R7: an integer instruction completes; rd (x0 takes no write) receives the result of its operation on the source
registers, its immediate and its pc (a repeated instruction's is that of the word after the `rep`), and nothing else that a program sees changes. Integer results are those of RV64I, M, Zba and Zbb
(PRESUMED, assumption 20).
01 R19, 02 R40: a transfer that is taken with its target in the thread's own scratchpad and word-aligned completes there, `jal` and
`jalr` with the link in rd; a branch that is not taken completes in sequence; a target outside the prefix takes the trap 0x01 with that
target as the fault address, and one that is not word-aligned the trap 0x00. -/
def Obligations.IntegersAndTransfers : Prop :=
  (∀ (s : State) (op : IntOp) (rd rs1 rs2 : Nat) (imm : Int), s.settled false →
    ∃ t, exec (.integerOp op rd rs1 rs2 imm) s = .next t ∧
      Done s t ((s.me.r.setX rd (intResult op (s.getX rs1) (s.getX rs2) imm s.me.instrPc)).after s.me.run.rep) s.myTile.r s.mem) ∧
  (∀ (s : State) (op : CtlOp) (rd rs1 rs2 : Nat) (imm : Int),
    let i := Instr.controlTransfer op rd rs1 rs2 imm
    let c := ctlTarget op (s.getX rs1) (s.getX rs2) s.me.r.pc imm
    let ownTile := c.2.toNat / 131072 = s.prefixOf s.focus.tile / 131072
    (s.settled false → c.1 = true → ownTile → c.2.toNat % 4 = 0 → ∃ t, exec i s = .next t ∧
      Done s t ((if op = .jal ∨ op = .jalr then s.me.r.setX rd (s.me.r.pc + 4) else s.me.r).jumped (pcOff c.2)) s.myTile.r s.mem) ∧
    (s.settled false → c.1 = false → ∃ t, exec i s = .next t ∧ Done s t (s.me.r.after s.me.run.rep) s.myTile.r s.mem) ∧
    (s.canTrap → c.1 = true → ¬ownTile → ∃ t, exec i s = .next t ∧ Trapped s t 0x01 0 c.2.toNat) ∧
    (s.canTrap → c.1 = true → ownTile → c.2.toNat % 4 ≠ 0 → ∃ t, exec i s = .next t ∧ Trapped s t 0x00 0 c.2.toNat))

/-- 04 R79: a floating-point instruction on t0 or t1 completes; its result goes to the f or x register, its flags are OR-ed into `fflags`
and no other register changes; an invalid dynamic rounding mode is an illegal instruction. The results are those of RV64F (PRESUMED,
assumption 21). -/
def Obligations.FpOpWritesResultAndFlags : Prop :=
  ∀ (s : State) (op : FpOp) (rm rd rs1 rs2 rs3 : Nat), s.focus.thread ≤ 1 →
    let i := Instr.fpOp op rm rd rs1 rs2 rs3
    let r := s.me.r
    let mode := if usesRm op then roundingMode rm r.frm else some .rne
    (∀ md, mode = some md → s.settled false → ∃ t, exec i s = .next t ∧
      ((∀ code fl, fpResult op md (r.getF rs1).toNat (r.getF rs2).toNat (r.getF rs3).toNat (s.getX rs1) = .f code fl →
        Done s t (((r.setF rd (BitVec.ofNat 32 code)).raiseF fl).after s.me.run.rep) s.myTile.r s.mem) ∧
      (∀ v fl, fpResult op md (r.getF rs1).toNat (r.getF rs2).toNat (r.getF rs3).toNat (s.getX rs1) = .x v fl →
        Done s t (((r.setX rd v).raiseF fl).after s.me.run.rep) s.myTile.r s.mem))) ∧
    (mode = none → s.canTrap → ∃ t, exec i s = .next t ∧ Trapped s t 0x02 0 0)

/-- 01 R18, 04 R73, 12 R263: a load of bytes of the thread's own scratchpad completes with the bytes' little-endian value, sign- or
zero-extended, in its destination; a poisoned granule takes the trap 0x21. On t2 the access is the same (15 R325).
04 R73, 12 R263: a store to bytes of the thread's own scratchpad completes; those bytes hold the low bytes of its data register in
little-endian order, and every other byte of memory and every register but pc and the loop registers is as before.
12 R263, R264, R274, R276, 13 R281: a load or store of t0 or t1 at any other address, another tile's or a translated one, completes with its request
on its way to its home, or traps as its checks say, or waits for a walk; the request's answer writes the register. -/
def Obligations.LoadsAndStoresOfOwnScratchpad : Prop :=
  (∀ (s : State) (op : LoadOp) (rd rs1 : Nat) (imm : Int),
    let i := Instr.load op rd rs1 imm
    let a := (s.getX rs1 + immW imm).toNat
    let n := loadSize op
    let v := s.mem.readNat (padKey s.focus.tile (addrOff a)) n
    s.ownBytes a n → (1 < s.focus.thread → op ≠ .flw) → (s.focus.thread ≠ 2 → s.ownFree (addrOff a) n false) →
    (s.settled false → poisonedAt s s.focus.tile (addrOff a) n = false → ∃ t, exec i s = .next t ∧
      Done s t ((if op = .flw then s.me.r.setF rd (BitVec.ofNat 32 v) else s.me.r.setX rd (extendTo n (loadSigned op) v)).after s.me.run.rep)
        s.myTile.r s.mem) ∧
    (s.canTrap → poisonedAt s s.focus.tile (addrOff a) n = true → ∃ t, exec i s = .next t ∧ Trapped s t 0x21 0 (a / 8 * 8))) ∧
  (∀ (s : State) (op : StoreOp) (rs1 rs2 : Nat) (imm : Int),
    let i := Instr.store op rs1 rs2 imm
    let a := (s.getX rs1 + immW imm).toNat
    let n := storeSize op
    s.ownBytes a n → (1 < s.focus.thread → op ≠ .fsw) → (s.focus.thread ≠ 2 → s.ownFree (addrOff a) n true) → s.settled false →
    ∃ t m, exec i s = .next t ∧ Done s t (s.me.r.after s.me.run.rep) s.myTile.r m ∧
      m.readNat (padKey s.focus.tile (addrOff a)) n = storeData op s rs2 % 256 ^ n ∧
      ∀ k, ¬(padKey s.focus.tile (addrOff a) ≤ k ∧ k < padKey s.focus.tile (addrOff a) + n) → m.read k = s.mem.read k) ∧
  (∀ (s : State) (lo : LoadOp) (so : StoreOp) (rd rs1 rs2 : Nat) (imm : Int), s.focus.thread ≤ 1 →
    let a := (s.getX rs1 + immW imm).toNat
    s.accesses (.load lo rd rs1 imm) a (loadSize lo) .load false (fun p => mkReq (.load (loadSigned lo)) p (loadSize lo) 0 a) (loadDst lo rd) false
      (fun a p => classOf a p clsR) ∧
    s.accesses (.store so rs1 rs2 imm) a (storeSize so) .store false (fun p => mkReq .store p (storeSize so) (storeData so s rs2) a) .nowhere false
      (fun a p => classOf a p clsW) ∧
    (pathOf a = 1 → addrWin a = 0 →
      (addrOff a + loadSize lo ≤ 131072 → a % loadSize lo = 0 → target s a (loadSize lo) .load = .place ⟨nameTile (addrName a), addrOff a, addrName a⟩) ∧
      (addrOff a + storeSize so ≤ 131072 → a % storeSize so = 0 →
        target s a (storeSize so) .store = .place ⟨nameTile (addrName a), addrOff a, addrName a⟩)))

/-- 14 R295, R296, 04 R78: an AMO on own bytes completes indivisibly with the old value, sign-extended, in rd and the operation's result in
memory; `lr` reads the value and leaves a reservation of the granule at the home; `sc` stores and writes 0 while that reservation and the
address of the thread's own `lr` stand, and else stores nothing and writes 1. No other byte of memory changes. At any other address
each completes with its request on its way to the home (12 R263, R274; 13 R281, R285), traps as its checks say, or waits for a walk; a register window
takes no `lr`. With rl set, each waits until the thread's earlier accesses are
complete (the way the model keeps the order of 13 R285). -/
def Obligations.AtomicsOnOwnScratchpad : Prop :=
  (∀ (s : State) (dw aq rl : Bool) (rd rs1 rs2 : Nat),
    let a := (s.getX rs1).toNat
    let n := if dw then 8 else 4
    let key := padKey s.focus.tile (addrOff a)
    let old := s.mem.readNat key n
    let d := (s.getX rs2).toNat
    let outside (m : Memory) : Prop := ∀ k, ¬(key ≤ k ∧ k < key + n) → m.read k = s.mem.read k
    s.ownBytes a n → s.ownFree (addrOff a) n true → s.focus.thread ≤ 1 → (rl = true → s.switched = true ∧ s.allDone = true) → s.settled false →
    poisonedAt s s.focus.tile (addrOff a) n = false →
    (∀ op, ∃ t m, exec (.amo op dw aq rl rd rs1 rs2) s = .next t ∧
      Done s t ((s.me.r.setX rd (extendTo n true old)).after s.me.run.rep) s.myTile.r m ∧
      m.readNat key n = amoResult op n old d % 256 ^ n ∧ outside m) ∧
    (∃ t, exec (.lr dw aq rl rd rs1) s = .next t ∧
      Done s t ((s.me.r.setX rd (extendTo n true old)).after s.me.run.rep) s.myTile.r s.mem ∧
      (s.undisturbed → t.me.run.lrAddr = some a ∧ ⟨addrOff a / 8, s.focus.tile, s.focus.thread⟩ ∈ (t.home s.focus.tile).resv)) ∧
    ((s.me.run.lrAddr = some a ∧ ⟨addrOff a / 8, s.focus.tile, s.focus.thread⟩ ∈ (s.home s.focus.tile).resv) →
      ∃ t m, exec (.sc dw aq rl rd rs1 rs2) s = .next t ∧ Done s t ((s.me.r.setX rd 0).after s.me.run.rep) s.myTile.r m ∧
        m.readNat key n = d % 256 ^ n ∧ outside m) ∧
    (¬(s.me.run.lrAddr = some a ∧ ⟨addrOff a / 8, s.focus.tile, s.focus.thread⟩ ∈ (s.home s.focus.tile).resv) →
      ∃ t, exec (.sc dw aq rl rd rs1 rs2) s = .next t ∧ Done s t ((s.me.r.setX rd 1).after s.me.run.rep) s.myTile.r s.mem)) ∧
  (∀ (s : State) (dw aq rl : Bool) (rd rs1 rs2 : Nat), s.focus.thread ≤ 1 → (rl = true → s.switched = true ∧ s.allDone = true) →
    let a := (s.getX rs1).toNat
    let n := if dw then 8 else 4
    let d := (s.getX rs2).toNat
    (∀ op, s.accesses (.amo op dw aq rl rd rs1 rs2) a n .atomic false (fun p => { mkReq (.amo op) p n d a with awaited := rd != 0 })
      (if rd = 0 then .nowhere else .x rd n true) aq (fun _ _ => clsR + clsW)) ∧
    (lrAllowed a = true → s.accesses (.lr dw aq rl rd rs1) a n .probe false (fun p => mkReq .lr p n 0 a) (.x rd n true) aq (fun _ _ => clsR)) ∧
    (lrAllowed a = false → s.canTrap → ∃ t, exec (.lr dw aq rl rd rs1) s = .next t ∧ Trapped s t 0x05 0 a) ∧
    s.accesses (.sc dw aq rl rd rs1 rs2) a n .atomic false (fun p => { mkReq .sc p n d a with local_ := s.me.run.lrAddr == some a })
      (.x rd 8 false) aq (fun _ _ => clsR + clsW)) ∧
  (∀ (s : State) (op : AmoOp) (dw aq : Bool) (rd rs1 rs2 : Nat) (i : Instr), s.focus.thread ≤ 1 → s.switched = true → s.allDone = false → s.me.run.clear →
    i ∈ [Instr.amo op dw aq true rd rs1 rs2, .sc dw aq true rd rs1 rs2, .lr dw aq true rd rs1] →
    ((∃ b, i = .lr dw aq b rd rs1) → lrAllowed (s.getX rs1).toNat = true) → ∃ t, exec i s = .next t ∧ Same s t)

/-- 12 R263, 16 R339: an access to own bytes that is not aligned to its size takes the trap 0x04 (a read) or 0x06 (a write), one beyond
the scratchpad 0x05 or 0x07, with its address as the fault address and nothing done. -/
def Obligations.BadScratchpadAccessTraps : Prop :=
  ∀ (s : State) (rd rs1 rs2 : Nat) (imm : Int) (lo : LoadOp) (so : StoreOp), s.canTrap → s.me.held = false →
    let a := (s.getX rs1 + immW imm).toNat
    pathOf a = 1 → addrWin a = 0 →
    (addrOff a + loadSize lo ≤ 131072 → a % loadSize lo ≠ 0 → ∃ t, exec (.load lo rd rs1 imm) s = .next t ∧ Trapped s t 0x04 0 a) ∧
    (131072 < addrOff a + loadSize lo → ∃ t, exec (.load lo rd rs1 imm) s = .next t ∧ Trapped s t 0x05 0 a) ∧
    (addrOff a + storeSize so ≤ 131072 → a % storeSize so ≠ 0 → ∃ t, exec (.store so rs1 rs2 imm) s = .next t ∧ Trapped s t 0x06 0 a) ∧
    (131072 < addrOff a + storeSize so → ∃ t, exec (.store so rs1 rs2 imm) s = .next t ∧ Trapped s t 0x07 0 a)

/-! Fences, system calls, control and status registers -/

/-- 13 R287, R288, 04 R77, 01 R20: a fence completes when nothing of its predecessor set is outstanding at a home of its scope, with nothing
but the pc and the loop registers changed. While an outstanding access of the set has a home there, either it does not complete (no register
and no byte of memory changes), or the thread goes on and the fence's order stands: every access of its successor set to a home of its
scope is then held back (which of the two happens is a free value, the model's choice, assumption 90). `fence` and `fence.tso` are
system-scope fences with the mapped sets. `fence.i` completes once the thread's own stores to its scratchpad are performed, and leaves the
thread's fetches no old word that it stored over itself, and none older than its last synchronising read. -/
def Obligations.FencesWaitForTheirPredecessors : Prop :=
  ∀ (s : State) (sb : Bool) (p q sc fm rd rs1 imm : Nat), s.focus.thread ≤ 1 →
    let g := s.focus.tile
    let h := s.focus.thread
    let blocked (p sc : Nat) : Prop := ∃ o ∈ s.me.run.outs, ∃ x ∈ o.parts, (x.cls &&& p) ≠ 0 ∧ inScope s g sc x.home = true
    let ready (p : Nat) : Prop := p / 2 % 2 = 1 → s.switched = true
    let whole (i : Instr) : Prop := ∃ t, exec i s = .next t ∧ Done s t (s.me.r.after s.me.run.rep) s.myTile.r s.mem
    let orders (q sc : Nat) (i : Instr) : Prop := ∃ t, exec i s = .next t ∧ (Same s t ∨
      (Done s t (s.me.r.after s.me.run.rep) s.myTile.r s.mem ∧
        ∀ cls home, (q &&& cls) ≠ 0 → inScope t g sc home = true → t.heldOrder g h cls home = true))
    (ready p → fenceWaits s p sc = false → s.settled sb → whole (.fencex sb p q sc)) ∧
    (ready p → blocked p sc → s.settled sb → orders q sc (.fencex sb p q sc)) ∧
    (ready (fenceSet p) → fenceWaits s (fenceSet p) 5 = false → s.settled false → whole (.fence fm p q rd rs1)) ∧
    (ready (fenceSet p) → blocked (fenceSet p) 5 → s.settled false → orders (fenceSet q) 5 (.fence fm p q rd rs1)) ∧
    (ready 7 → fenceWaits s 7 5 = false → s.settled false → whole (.fenceTso rd rs1)) ∧
    (ready 7 → blocked 7 5 → s.settled false → orders 7 5 (.fenceTso rd rs1)) ∧
    (s.ownStoresOpen = false → s.settled false → whole (.fenceI rd rs1 imm)) ∧
    (s.ownStoresOpen = true → s.me.run.clear → ∃ t, exec (.fenceI rd rs1 imm) s = .next t ∧ Same s t) ∧
    (s.ownStoresOpen = false → s.settled false → s.undisturbed → ∃ t, exec (.fenceI rd rs1 imm) s = .next t ∧
      ∀ w, ∀ x ∈ t.me.run.stale.look w [], x.own = false ∧ s.me.run.acq ≤ x.at_)

/-- 04 R74 to R76, 09 R225: `ecall` sends the eight argument registers and its pc to the island of its block and sleeps with a wait-table
entry of kind 6; with the reply, a0 and a1 receive it and the instruction completes. `ebreak` traps with cause 0x03 where debugging is
off and halts the thread for the debugger where it is on. `wfi` sleeps until a wake, then completes. On an attached follower
the three do nothing.
04 R74, 17 R370: the island's reply completes the `ecall` that waits for it, with the result in a0 and the status in a1. A thread stopped
meanwhile keeps the reply, and its `ecall` completes with it when the thread sleeps there again; a reply to a call that the thread no
longer waits for changes no register and no memory. -/
def Obligations.SystemInstructions : Prop :=
  (∀ (s : State), s.focus.thread ≤ 1 →
    let g := s.focus.tile
    let args := (List.range 8).map (fun k => s.getXn (10 + k))
    let idle (i : Instr) : Prop := ∃ t, exec i s = .next t ∧ Done s t (s.me.r.after s.me.run.rep) s.myTile.r s.mem
    (s.isFollower = true → s.settled false → idle .ecall ∧ idle .ebreak ∧ idle .wfi) ∧
    (s.isFollower = false → s.settled false → ∀ v, s.me.run.answer = some v →
      (∃ t, exec .ecall s = .next t ∧ Done s t
        (((s.me.r.setX 10 (BitVec.ofNat 64 s.me.run.phaseVal)).setX 11 (BitVec.ofNat 64 v)).after s.me.run.rep) s.myTile.r s.mem) ∧
      idle .wfi) ∧
    (s.isFollower = false → s.me.run.answer = none → s.me.run.phase ≠ 1 → s.switched = true → fenceWaits s 15 5 = false →
      isTileHome g = true → s.inSystem (waferOf g) (waferOf g) = true → s.undisturbed → s.me.run.wait = none →
      ∃ t, exec .ecall s = .next t ∧ Same s t ∧ t.me.run.ts = .sleeping ∧
        t.me.run.wait = some ⟨6, 0, (s.getX 17).toNat, s.now⟩ ∧
        t.sent g 15 (islandHome (islandOf g)) 9 (.syscall args s.me.r.pc.toNat)) ∧
    (s.isFollower = false → s.canTrap → (s.region (s.regionOf g)).dbgEn = false →
      ∃ t, exec .ebreak s = .next t ∧ Trapped s t 0x03 0 0) ∧
    (s.isFollower = false → s.midway g s.focus.thread = false → s.me.run.clear → s.me.run.ts = .running → s.me.run.dbg.halted = false →
      (s.region (s.regionOf g)).dbgEn = true →
      ∃ t, exec .ebreak s = .next t ∧ Same s t ∧ t.me.run.ts = .stopped ∧ t.me.run.dbg.halted = true ∧ t.me.run.dbg.atEbreak = true) ∧
    (s.isFollower = false → s.me.run.answer = none → s.undisturbed → s.me.run.wait = none →
      ∃ t, exec .wfi s = .next t ∧ Same s t ∧ t.me.run.ts = .sleeping ∧ t.me.run.wait = some ⟨5, 0, 0, s.now⟩) ∧
    (∀ w, s.me.run.ts = .sleeping → s.me.run.wait = some w → w.kind = 5 →
      ∃ t, exec .wfiWake s = .next t ∧ Same s t ∧ t.me.run.ts = .running ∧ t.me.run.answer = some 0)) ∧
  (∀ (s s' : State) (m : Msg) (rest : List Msg) (v st : Nat),
    let g := s.focus.tile
    let taken := s.modHome g (fun q => { q with inbox := rest })
    let ends : Prop := s'.isFollower = false → s'.me.run.answer = some st → s'.me.run.phaseVal = v → s'.settled false →
      ∃ t, exec .syscallReply s = .next t ∧
        Done s' t (((s'.me.r.setX 10 (BitVec.ofNat 64 v)).setX 11 (BitVec.ofNat 64 st)).after s'.me.run.rep) s'.myTile.r s'.mem
    (s.replyKept 1 = none → callAnswer s 1 = some (m, rest) → m.body = .callReply v st →
      (s.me.callOpen 1 m.seq = true → s.me.run.ts = .sleeping → (taken.modMe (·.takeReply st v)).standsAt s' .ecall → ends) ∧
      (s.me.callOpen 1 m.seq = true → s.me.run.ts ≠ .sleeping → ∃ t, exec .syscallReply s = .next t ∧ Same s t ∧
        t.me.run.answer = some st ∧ t.me.run.phaseVal = v) ∧
      (s.me.callOpen 1 m.seq = false → ∃ t, exec .syscallReply s = .next t ∧ Same s t ∧ (t.home g).inbox = rest)) ∧
    (s.replyKept 1 = some (st, v) → s.standsAt s' .ecall → ends))

/-- 01 R11 to R16, 02 R40: a Zicsr access of a listed CSR completes with the old contents in rd and, where the word writes, the new value in
the CSR (its reserved bits dropped); a CSR that is not listed, not on the thread, or read-only and written, is an illegal
instruction.
01 R12 to R14, 03 R58, 07 R179, 10 R250: the CSRs whose access does more. A read of `errword` returns and clears it; `fxflags` waits for
the matrix queue; a write of `qwdomain` that changes it gives up the held weight; a write of a `qbind` CSR binds or frees the stream
register, and one that binds VC 12 or more is illegal. -/
def Obligations.CsrAccesses : Prop :=
  (∀ (s : State) (o : CsrArgs),
    let rd := csrRead s s.focus.tile s.focus.thread o.csr
    (∀ old, rd = some old → o.writes = false → s.settled false → ∃ t, exec (.csrAccess o) s = .next t ∧
      Done s t ((s.me.r.setX o.rd (BitVec.ofNat 64 old)).after s.me.run.rep) s.myTile.r s.mem) ∧
    (∀ old, rd = some old → o.writes = true → csrWritable s.focus.thread o.csr = true → o.csr ≠ 0x820 → s.settled false →
      ∃ t, exec (.csrAccess o) s = .next t ∧
      Done s t (((s.me.r.csrSet o.csr (csrValue o s old)).setX o.rd (BitVec.ofNat 64 old)).after s.me.run.rep) s.myTile.r s.mem) ∧
    (∀ old, rd = some old → o.writes = true → csrWritable s.focus.thread o.csr = true → o.csr = 0x820 → s.settled false →
      ∃ t, exec (.csrAccess o) s = .next t ∧
      Done s t ((s.me.r.setX o.rd (BitVec.ofNat 64 old)).after s.me.run.rep)
        { s.myTile.r with lhtbase := csrValue o s old / 512 % 256 } s.mem) ∧
    (∀ old, rd = some old → o.writes = true → csrWritable s.focus.thread o.csr = false → s.canTrap →
      ∃ t, exec (.csrAccess o) s = .next t ∧ Trapped s t 0x02 0 0) ∧
    (rd = none → s.canTrap → ∃ t, exec (.csrAccess o) s = .next t ∧ Trapped s t 0x02 0 0)) ∧
  (∀ (s : State) (o : CsrArgs), s.focus.thread ≤ 1 →
    let r := s.me.r
    (o.csr = 0xCC6 → o.writes = false → s.settled false → ∃ t, exec (.errwordRead o) s = .next t ∧
      Done s t ((({ r with errword := {} } : Regs).setX o.rd (BitVec.ofNat 64 (errWordOf r.errword))).after s.me.run.rep) s.myTile.r s.mem) ∧
    (o.csr = 0xCC6 → o.writes = true → s.canTrap → ∃ t, exec (.errwordRead o) s = .next t ∧ Trapped s t 0x02 0 0) ∧
    (o.csr = 0x80B → s.focus.thread = 0 → s.myTile.e.mq = [] → s.settled false → ∃ t, exec (.fxflagsAccess o) s = .next t ∧
      Done s t (((if o.writes then { r with fxflags := csrValue o s r.fxflags % 32 } else r).setX o.rd (BitVec.ofNat 64 r.fxflags)).after
        s.me.run.rep) s.myTile.r s.mem) ∧
    (o.csr = 0x80B → s.focus.thread = 0 → s.myTile.e.mq ≠ [] → s.me.run.clear → ∃ t, exec (.fxflagsAccess o) s = .next t ∧ Same s t) ∧
    (o.csr = 0x80C → o.writes = true → s.returnRoom s.focus.tile r.weight = true → s.settled false →
      let old := qwdomainWord r
      let v := csrValue o s old
      ∃ t, exec (.qwdomainWrite o) s = .next t ∧
        Done s t ((({ r with qwV := v / 64 % 2 == 1, qwDom := v % 64, weight := if v % 128 = old then r.weight else 0 } : Regs).setX o.rd
          (BitVec.ofNat 64 old)).after s.me.run.rep) s.myTile.r s.mem) ∧
    (0x810 ≤ o.csr → o.csr ≤ 0x817 → o.writes = true → s.focus.thread = 0 → s.settled false →
      let old := qbindWord (r.qbind.look (o.csr - 0x810) {})
      let v := csrValue o s old
      v / 9223372036854775808 % 2 = 1 → v / 17179869184 % 16 < 12 →
      ∃ t, exec (.qbindCsrWrite o) s = .next t ∧
        Done s t (((r.bindQ (o.csr - 0x810) ⟨true, v / 17179869184 % 16, v % 17179869184⟩).setX o.rd (BitVec.ofNat 64 old)).after
          s.me.run.rep) s.myTile.r s.mem) ∧
    (0x810 ≤ o.csr → o.csr ≤ 0x817 → o.writes = true → s.focus.thread = 0 → s.canTrap →
      let v := csrValue o s (qbindWord (r.qbind.look (o.csr - 0x810) {}))
      v / 9223372036854775808 % 2 = 1 → 12 ≤ v / 17179869184 % 16 →
      ∃ t, exec (.qbindCsrWrite o) s = .next t ∧ Trapped s t 0x02 0 0))

/-! Random numbers, loops, time, sections -/

/-- 04 R88, R89, R91: `rng64`, `rngf` and `rngv` take 1, 1 and 8 outputs of the thread's generator and advance it as often; `rngjump`
only moves its state.
04 R93 to R95, 17 R368, R369: `tstamp` gives the guest time, once no read is outstanding; `slotwait` with an exponent 6 to 20 waits for
the next multiple of 2^k ns, where it completes, with any other it is illegal; `slice` gives the slice's grant, all ones without slicing; `errinfo`
returns and clears `errword`, once no error of the thread's own accesses can still come; `npenter` and `npexit` raise and lower the section depth. -/
def Obligations.RandomTimeAndSections : Prop :=
  (∀ (s : State) (o : CR), s.focus.thread ≤ 1 → s.settled o.s →
    let r := s.me.r
    let d := rngNext r.s0 r.s1
    let r1 : Regs := { r with s0 := d.2.1, s1 := d.2.2 }
    (∃ t, exec (.rng64 o) s = .next t ∧ Done s t ((r1.setX o.rd d.1).after s.me.run.rep) s.myTile.r s.mem) ∧
    (∃ t, exec (.rngf o) s = .next t ∧
      Done s t ((r1.setF o.rd (BitVec.ofNat 32 (roundMag fp32 false ⟨d.1.toNat / 2 ^ 40, -24, false⟩).1)).after s.me.run.rep) s.myTile.r s.mem) ∧
    (s.focus.thread = 0 → ∃ t, exec (.rngv o) s = .next t ∧
      Done s t ((drawVec s.me).2.r.after s.me.run.rep) (s.myTile.r.setV o.rd (drawVec s.me).1) s.mem ∧
      (drawVec s.me).1.toNat % 2 ^ 64 = d.1.toNat) ∧
    (let j := jumpScaled (s.getXn o.rs1 % 2 ^ 32) 32 32 (r.s0, r.s1)
      ∃ t, exec (.rngjump o) s = .next t ∧ Done s t (({ r with s0 := j.1, s1 := j.2 } : Regs).after s.me.run.rep) s.myTile.r s.mem)) ∧
  (∀ (s : State) (o : CR), s.focus.thread ≤ 1 →
    let r := s.me.r
    let k := s.getXn o.rs1
    let reg := s.region (s.regionOf s.focus.tile)
    let gives (i : Instr) (r' : Regs) : Prop := ∃ t, exec i s = .next t ∧ Done s t (r'.after s.me.run.rep) s.myTile.r s.mem
    (s.settled o.s → s.me.readsDone = true → gives (.tstamp o) (r.setX o.rd (BitVec.ofNat 64 (s.guestTime (s.regionOf s.focus.tile))))) ∧
    (s.settled o.s → 6 ≤ k → k ≤ 20 → s.me.run.phase = 1 → s.me.run.phaseVal ≤ s.now → gives (.slotwait o) r) ∧
    (s.me.readsDone = false → s.me.run.clear → ∃ t, exec (.tstamp o) s = .next t ∧ Same s t) ∧
    (6 ≤ k → k ≤ 20 → s.me.run.phase = 1 → s.now < s.me.run.phaseVal → s.me.run.clear → ∃ t, exec (.slotwait o) s = .next t ∧ Same s t) ∧
    (s.ownErrors s.focus.tile s.focus.thread = true ∨ s.copiesUnsent s.focus.tile s.focus.thread = true ∨
      s.notInjected s.focus.tile s.focus.thread = true → s.me.run.clear → ∃ t, exec (.errinfo o) s = .next t ∧ Same s t) ∧
    (6 ≤ k → k ≤ 20 → s.me.run.phase ≠ 1 → s.undisturbed → ∃ t, exec (.slotwait o) s = .next t ∧
      Same s t ∧ t.me.run.phase = 1 ∧ s.now < t.me.run.phaseVal ∧ t.me.run.phaseVal ≤ s.now + 2 ^ k ∧ t.me.run.phaseVal % 2 ^ k = 0) ∧
    (k < 6 ∨ 20 < k → s.canTrap → ∃ t, exec (.slotwait o) s = .next t ∧ Trapped s t 0x02 0 0) ∧
    (∀ s' o', issue s = .go s' (.slotwait o') → s.me.run.phase = 1 → s.me.run.phaseVal ≤ s.now → s'.me.run.phase = 1 →
      s'.me.run.phaseVal ≤ s'.now → 6 ≤ s'.getXn o'.rs1 → s'.getXn o'.rs1 ≤ 20 → s'.settled o'.s →
      ∃ t, exec .slotwaitBoundary s = .next t ∧ Done s' t (s'.me.r.after s'.me.run.rep) s'.myTile.r s'.mem) ∧
    (s.settled o.s → gives (.slice o) (r.setX o.rd (BitVec.ofNat 64 (if reg.sliceLen = 0 then 2 ^ 64 - 1 else reg.grant)))) ∧
    (s.settled o.s → s.ownErrors s.focus.tile s.focus.thread = false → s.copiesUnsent s.focus.tile s.focus.thread = false →
      s.notInjected s.focus.tile s.focus.thread = false →
      gives (.errinfo o) (({ r with errword := {} } : Regs).setX o.rd (BitVec.ofNat 64 (errWordOf r.errword)))) ∧
    (s.settled o.s → s.me.run.npd < 15 → gives (.npenter o) r) ∧
    (s.settled o.s → s.me.run.npd < 15 → reg.npLimit ≠ 0 → s.undisturbed →
      ∃ t, exec (.npenter o) s = .next t ∧ t.me.run.npd = s.me.run.npd + 1) ∧
    (reg.npLimit ≠ 0 → s.me.run.npd = 15 → s.canTrap → ∃ t, exec (.npenter o) s = .next t ∧ Trapped s t 0x02 0 0) ∧
    (s.settled o.s → gives (.npexit o) r) ∧
    (s.settled o.s → s.undisturbed → ∃ t, exec (.npexit o) s = .next t ∧ t.me.run.npd = s.me.run.npd - 1))

/-- 04 R80, R82, R84, R86: what follows an instruction that completes without a transfer. Outside a repeat and off the loop's end, the next
word; at the end of a loop with iterations left, the loop's start with one fewer; after its last iteration the next word, with the loop
off; within a repeat the same place, one repetition more; after its last repetition the word after the pair, or, where its target ends the loop, what the
loop's end gives. -/
def Obligations.WhatFollowsInSequence : Prop :=
  ∀ (r : Regs) (q : RepRun),
    let off := pcOff r.pc
    (¬(r.loop.lpa = true ∧ off = r.loop.last) → r.after none = ({ r with pc := pcWith r.pc (off + 4) } : Regs).counted) ∧
    (r.loop.lpa = true → off = r.loop.last → 1 < r.loop.count.toNat →
      r.after none = ({ r with pc := pcWith r.pc r.loop.start, loop := { r.loop with count := r.loop.count - 1 } } : Regs).counted) ∧
    (r.loop.lpa = true → off = r.loop.last → r.loop.count.toNat ≤ 1 →
      r.after none = ({ r with pc := pcWith r.pc (off + 4), loop := { r.loop with count := 0, lpa := false } } : Regs).counted) ∧
    (r.loop.repdone + 1 < q.count → r.after (some q) = ({ r with loop := { r.loop with repdone := r.loop.repdone + 1 } } : Regs).counted) ∧
    (q.count ≤ r.loop.repdone + 1 → ¬(r.loop.lpa = true ∧ off + 4 = r.loop.last) →
      r.after (some q) = ({ r with pc := pcWith r.pc (off + 8), loop := { r.loop with repa := false, repdone := 0 } } : Regs).counted) ∧
    (q.count ≤ r.loop.repdone + 1 → r.loop.lpa = true → off + 4 = r.loop.last → 1 < r.loop.count.toNat → r.after (some q) =
      ({ r with pc := pcWith r.pc r.loop.start,
                loop := { r.loop with repa := false, repdone := 0, count := r.loop.count - 1 } } : Regs).counted) ∧
    (q.count ≤ r.loop.repdone + 1 → r.loop.lpa = true → off + 4 = r.loop.last → r.loop.count.toNat ≤ 1 → r.after (some q) =
      ({ r with pc := pcWith r.pc (off + 8),
                loop := { r.loop with repa := false, repdone := 0, count := 0, lpa := false } } : Regs).counted)

/-- 04 R81: `lpset` with a count sets up the loop over the words that follow and goes on with the first; with the count 0 it skips the
body; a body that runs past the scratchpad traps with cause 0x01, and one while a loop is active is an illegal instruction.
04 R84 to R87: a `rep` whose pair passes the check sets the next repetition up: REPA set, REPDONE the repetitions done, and the word
that runs next the target with its selected register fields stepped. When all are done it passes the pair. A pair that fails the check
is an illegal instruction whose report names the word at fault. -/
def Obligations.LoopsAndRepeatsSetUp : Prop :=
  (∀ (s : State) (sb : Bool) (len rs1 : Nat), s.focus.thread ≤ 1 →
    let off := pcOff s.me.r.pc
    let r := s.me.r
    let body : Loop := { r.loop with count := s.getX rs1, start := off + 4, last := off + 4 * len, lpa := true }
    (off + 4 * len ≤ 0x1FFFC → r.loop.lpa = false → s.getX rs1 ≠ 0 → s.settled sb → ∃ t, exec (.lpset sb len rs1) s = .next t ∧
      Done s t (({ r with pc := pcWith r.pc (off + 4), loop := body } : Regs).counted) s.myTile.r s.mem) ∧
    (off + 4 * len ≤ 0x1FFFC → r.loop.lpa = false → s.getX rs1 = 0 → s.settled sb → ∃ t, exec (.lpset sb len rs1) s = .next t ∧
      Done s t (({ r with pc := pcWith r.pc (off + 4 + 4 * len) } : Regs).counted) s.myTile.r s.mem) ∧
    (0x1FFFC < off + 4 * len → s.canTrap → ∃ t, exec (.lpset sb len rs1) s = .next t ∧
      Trapped s t 0x01 0 (s.prefixOf s.focus.tile + off + 4 * len)) ∧
    (off + 4 * len ≤ 0x1FFFC → r.loop.lpa = true → s.canTrap → ∃ t, exec (.lpset sb len rs1) s = .next t ∧ Trapped s t 0x02 0 0)) ∧
  (∀ (s : State) (sb : Bool) (count mask step w : Nat), s.focus.thread ≤ 1 →
    (s.me.run.gather.role ≠ .leader ∧ s.me.run.gather.role ≠ .attached) → poisonedAt s s.focus.tile (pcOff s.me.r.pc + 4) 4 = false →
    s.wordAfter = some (some w) →
    ¬(s.me.r.loop.lpa = true ∧ pcOff s.me.r.pc = s.me.r.loop.last) →
    let j := if s.me.r.loop.repa then s.me.r.loop.repdone else 0
    (repCheck s.focus.thread w count mask step = none → (sb = true → j = 0 → s.switched = true) → j < count →
      ∃ t, exec (.rep sb count mask step) s = .next t ∧
        Done s t { s.me.r with loop := { s.me.r.loop with repa := true, repdone := j } } s.myTile.r s.mem ∧
        t.me.run.rep = some ⟨steppedWord w mask step j, steppedWord 0 mask step 1, count, hasS w⟩) ∧
    (repCheck s.focus.thread w count mask step = none → (sb = true → j = 0 → s.switched = true) → count ≤ j →
      ∃ t, exec (.rep sb count mask step) s = .next t ∧
        Done s t { s.me.r with pc := pcWith s.me.r.pc (pcOff s.me.r.pc + 8), loop := { s.me.r.loop with repa := false, repdone := 0 } }
          s.myTile.r s.mem) ∧
    (∀ bad, repCheck s.focus.thread w count mask step = some bad → s.canTrap →
      ∃ t, exec (.rep sb count mask step) s = .next t ∧ Trapped { s with focus := { s.focus with word := bad } } t 0x02 0 0))


/-! The mesh -/

/-- 07 R171 to R173, 02 R33: the port forms. With both sources there, OP(a, b) goes to its x register or, as a port word on the thread's
VC, to the neighbour behind its port; exactly the words it read have left their FIFO and the stream store. With an empty source, or no
header space, it sleeps with an entry of kind 0 or 1 and consumes nothing. (Neither an acquire nor a fence that it has passed holds it
back, 13 R285, R287.) An unbound stream register is illegal; a port that leads to no
tile traps with 0x05 (a source, the first before the second) or 0x07 (the destination), with the port's index as the address. -/
def Obligations.PortForms : Prop :=
  ∀ (s : State) (o : CP) (x : Instr × POp),
    x ∈ [(.madd o, .add), (.msub o, .sub), (.mand o, .and), (.mor o, .or), (.mxor o, .xor), (.msll o, .sll), (.msrl o, .srl),
      (.msra o, .sra), (.mmin o, .min), (.mmax o, .max), (.mminu o, .minu), (.mmaxu o, .maxu), (.mmov o, .mov), (.mfadd o, .fadd),
      (.mfmul o, .fmul), (.mfmax o, .fmax)] →
    classAllows s.focus.thread x.1 = true →
    let g := s.focus.tile
    let ra := portSrc s s.myTile.e o.k1 o.a
    let bound := unbound s o.k1 o.a = false ∧ unbound s o.k2 o.b = false
    let clean := bound ∧ badPort s o.k1 o.a = false ∧ badPort s o.k2 o.b = false ∧ badPort s o.kd o.d = false ∧ s.portHeld o = false
    let asleep (k v : Nat) : Prop := s.undisturbed → s.me.run.wait = none → ∃ t, exec x.1 s = .next t ∧ Same s t ∧
      t.sleepsWith k 0 v s.now ∧ t.myTile.e.fifo = s.myTile.e.fifo ∧ t.myTile.e.store = s.myTile.e.store
    (clean → ∀ va e1 n1 vb e2 n2, ra = .value va e1 n1 → portSrc s e1 o.k2 o.b = .value vb e2 n2 → s.settled o.s →
      let r := s.me.r.raiseF (portResult x.2 va vb).2
      let v := (portResult x.2 va vb).1
      (o.kd = false → ∃ t, exec x.1 s = .next t ∧ Done s t ((r.setX o.d v).after s.me.run.rep) s.myTile.r s.mem ∧
        t.myTile.e.fifo = e2.fifo ∧ t.myTile.e.store = e2.store) ∧
      (o.kd = true → s.canInject g s.me.r.mvc 1 = true → ∀ n, neighbour g o.d = some n →
        ∃ t, exec x.1 s = .next t ∧ Done s t (r.after s.me.run.rep) s.myTile.r s.mem ∧
          t.myTile.e.fifo = e2.fifo ∧ t.myTile.e.store = e2.store ∧
          (isTileHome g = true → s.passes g (s.nameOf n) n → t.sent g s.me.r.mvc n 0 (.portWord v 0))) ∧
      (o.kd = true → s.canInject g s.me.r.mvc 1 = false → asleep 1 o.d)) ∧
    (clean → (∀ v e n, ra ≠ .value v e n) → ∀ k v, portWait [ra, portSrc s s.myTile.e o.k2 o.b] = some (k, v) → asleep k v) ∧
    (clean → ∀ va e1 n1, ra = .value va e1 n1 → (∀ v e n, portSrc s e1 o.k2 o.b ≠ .value v e n) →
      ∀ k v, portWait [portSrc s e1 o.k2 o.b] = some (k, v) → asleep k v) ∧
    (¬bound → s.canTrap → ∃ t, exec x.1 s = .next t ∧ Trapped s t 0x02 0 0) ∧
    (bound → badPort s o.k1 o.a = true → s.canTrap → ∃ t, exec x.1 s = .next t ∧ Trapped s t 0x05 0 o.a) ∧
    (bound → badPort s o.k1 o.a = false → badPort s o.k2 o.b = true → s.canTrap →
      ∃ t, exec x.1 s = .next t ∧ Trapped s t 0x05 0 o.b) ∧
    (bound → badPort s o.k1 o.a = false → badPort s o.k2 o.b = false → badPort s o.kd o.d = true → s.canTrap →
      ∃ t, exec x.1 s = .next t ∧ Trapped s t 0x07 0 o.d)

/-- 07 R176 to R179: `send` and `sendv` inject their words as one stream message on the VC of their rd field, or sleep while the router
has no header space; `mvc` sets the thread's port VC where the value is a data VC and gives the old one; `qbind` and `qfree` bind and
free a stream register; `qcount` counts the stored words its binding matches; `qpopv` joins the pending long-latency writes. `send` and
`mvc` do so on t1 too (01 R4). -/
def Obligations.SendsAndBindings : Prop :=
  ∀ (s : State) (o : CR), s.focus.thread ≤ 1 →
    let g := s.focus.tile
    let r := s.me.r
    let vc := o.rd % 16
    let name := s.getXn o.rs1 % 2 ^ 34
    let gives (i : Instr) (r' : Regs) : Prop := ∃ t, exec i s = .next t ∧ Done s t (r'.after s.me.run.rep) s.myTile.r s.mem
    let h := s.focus.thread
    let free := s.heldOrder g h clsW (homeOfName name) = false
    let words (i : Instr) (n : Nat) (ws : List Word64) : Prop :=
      (s.canInject g vc n = true → s.settled o.s → ∃ t, exec i s = .next t ∧ Done s t (r.after s.me.run.rep) s.myTile.r s.mem ∧
        (isTileHome g = true → vc ≤ 11 → s.passes g name (homeOfName name) → t.sent g vc (homeOfName name) 1 (.stream ws))) ∧
      (s.canInject g vc n = false → s.undisturbed → s.me.run.wait = none →
        ∃ t, exec i s = .next t ∧ Same s t ∧ t.sleepsWith 1 0 (16 + vc) s.now)
    (free → words (.send o) 1 [s.getX o.rs2] ∧ (h = 0 → words (.sendv o) 4 (vWords (s.getV o.rs2)))) ∧
    (s.settled o.s → gives (.mvc o) (({ r with mvc := if s.getXn o.rs1 % 16 < 12 then s.getXn o.rs1 % 16 else r.mvc } : Regs).setX o.rd
      (BitVec.ofNat 64 r.mvc))) ∧
    (h = 0 → s.settled o.s → s.getXn o.rs2 % 16 < 12 → gives (.qbind o) (r.bindQ (o.rd % 8) ⟨true, s.getXn o.rs2 % 16, name⟩)) ∧
    (h = 0 → 12 ≤ s.getXn o.rs2 % 16 → s.canTrap → ∃ t, exec (.qbind o) s = .next t ∧ Trapped s t 0x02 0 0) ∧
    (h = 0 → s.settled o.s → gives (.qfree o) (r.bindQ (o.rd % 8) {})) ∧
    (h = 0 → s.settled o.s → gives (.qcount o) (r.setX o.rd (BitVec.ofNat 64
      (if (r.qbind.look (o.rs1 % 8) {}).v then (s.myTile.e.store.filter (r.qbind.look (o.rs1 % 8) {}).matches).length else 0)))) ∧
    (h = 0 → (r.qbind.look (o.rs1 % 8) {}).v = true → s.heldOrder g 0 clsR g = false → s.me.run.livePend.length < 8 → o.s = false →
      s.me.run.rep = none → s.me.run.clear → ∃ t, exec (.qpopv o) s = .next t ∧ Done s t (r.after none) s.myTile.r s.mem ∧
        t.me.run.livePend.length = s.me.run.livePend.length + 1 ∧ ∃ p ∈ t.me.run.livePend, p.toV = true ∧ p.reg = o.rd) ∧
    (h = 0 → (r.qbind.look (o.rs1 % 8) {}).v = false → s.canTrap → ∃ t, exec (.qpopv o) s = .next t ∧ Trapped s t 0x02 0 0)

/-- 07 R158, R159 (default routing, no override entry): at a message's own coordinate the output is the ejection; anywhere else it is a
link whose far end lies on the same wafer exactly one hop nearer to the destination. -/
def Obligations.RoutesMakeProgress : Prop :=
  ∀ (s : State) (g h : Nat) (esc : Bool),
    let y := (homeCoord h).1
    let x := (homeCoord h).2
    let far (g : Nat) : Nat := (x - xOf g) + (xOf g - x) + ((y - yOf g) + (yOf g - y))
    homeWafer h = waferOf g → x ≤ 767 → y ≤ 767 →
    (∀ n, n < 16 → ovrMatches ((s.ovrOf g).look n 0) (homeWafer h) y x = false) →
    (far g = 0 → (s.routeOf g esc h).1 = 4) ∧
    (far g ≠ 0 → (s.routeOf g esc h).1 < 4 ∧ ∃ n, neighbour g (s.routeOf g esc h).1 = some n ∧ waferOf n = waferOf g ∧ far n + 1 = far g)

/-- 07 R152, R154, R157 to R161, R168 to R170: what the router in focus does with the message at the head of an input buffer, when its output
serves the message's VC. At its destination it enters the home's inbox (a system call that of the island that polices its region, 17 R373)
unless the home refuses it or has no place for it; a control message of a reserved OP is discarded there and the island told (20 R410). Else
it moves to the input of the router its output leads to, when that has room for it, or is refused there by the check at the edge of its
destination's cluster. A message of a wrong kind for its VC, or with no link, is discarded, one for a closed tile is refused at once (16 R352),
and the island has a notice of it. No register and no byte of memory changes. -/
def Obligations.RoutersMoveMessages : Prop :=
  ∀ (s : State) (port vc : Nat) (esc : Bool) (m : Msg) (rest : List Msg) (out : Nat) (esc' ovr : Bool),
    let g := s.focus.tile
    let key := bufKey port vc esc
    let moved (t : State) : Prop := exec (.messageRoute port vc esc) s = .next t ∧ Same s t
    (s.tile g).rt.bufs.look key [] = m :: rest → (s.tile g).rt.stoppedRouter = false → m.route = some (out, esc', ovr) →
    (port = 4 → (s.tile g).e.unsent = []) → (∀ h ∈ homesAt g port, (s.home h).outbox = []) →
    (kindVcOk m.kind m.vc = true → out = 4 → s.ejectFull m port esc = false →
      (isTileHome m.dstHome = true → (s.tile m.dstHome).c.proofing = false) → (∀ p, sideOf m.dstHome = some p → s.linkIsDown g p = false) →
      s.served g 4 m.vc = true → s.ejectRefusal m = none →
      (m.kind = 9 → 5 ≤ m.aux / 4096 → ∃ t, moved t ∧ (t.tile g).rt.bufs.look key [] = rest ∧
        (0x46, m.src) ∈ (t.island (islandAt m.dstHome)).notices) ∧
      ((m.kind = 9 → m.aux / 4096 < 5) → let d := (s.forwarded m).dstHome
        ∃ t, moved t ∧ (t.tile g).rt.bufs.look key [] = rest ∧ ∃ m', (t.home d).inbox = (s.home d).inbox ++ [m'] ∧
        m'.src = m.src ∧ m'.kind = m.kind ∧ ((∀ v p, m.body ≠ .portWord v p) → m'.body = m.body) ∧
        (∀ v p, m.body = .portWord v p → m'.body = .portWord v port))) ∧
    (kindVcOk m.kind m.vc = true → out = 4 → s.served g 4 m.vc = true → isTileHome m.dstHome = true → (s.tile m.dstHome).rt.closed = true →
      isTileHome g = true → ∃ t l, moved t ∧ (t.tile g).rt.bufs.look key [] = rest ++ l ∧ (1, m.dst) ∈ (t.island (islandOf g)).notices) ∧
    (kindVcOk m.kind m.vc = true → out = 4 → (isTileHome m.dstHome = true → (s.tile m.dstHome).rt.closed = false) →
      s.ejectFull m port esc = true → exec (.messageRoute port vc esc) s = .next s) ∧
    (kindVcOk m.kind m.vc = true → out < 4 → homeWafer m.dstHome = waferOf g → s.noLink g out = false → s.linkIsDown g out = false →
      ∀ n, neighbour g out = some n → (s.tile n).rt.stoppedRouter = false → m.vc = vc →
      let there := (s.tile n).rt.bufs.look (bufKey (opposite out) vc esc') []
      let room := fitsBuf (if esc' then 4 else 8) there m.len
      (room = true → s.served g out vc = true → s.ingressRefusal g n m = none →
        ∃ t, moved t ∧ (t.tile g).rt.bufs.look key [] = rest ∧
        ∃ m', (t.tile n).rt.bufs.look (bufKey (opposite out) vc esc') [] = there ++ [m'] ∧
        m'.body = m.body ∧ m'.dst = m.dst ∧ m'.dstHome = m.dstHome ∧ m'.src = m.src ∧ m'.route = some (s.routeOf n esc' m.dstHome)) ∧
      (∀ why, room = true → s.served g out vc = true → s.ingressRefusal g n m = some why → isTileHome n = true →
        ∃ t l, moved t ∧ (t.tile g).rt.bufs.look key [] = rest ++ l ∧ (why, m.dst) ∈ (t.island (islandOf n)).notices) ∧
      (room = false ∨ s.served g out vc = false → exec (.messageRoute port vc esc) s = .next s)) ∧
    (kindVcOk m.kind m.vc = false ∨ out = 5 → isTileHome g = true → ∃ t l, moved t ∧ (t.tile g).rt.bufs.look key [] = rest ++ l ∧
      (5, m.dst) ∈ (t.island (islandOf g)).notices)

/-- 07 R175, R178, R173, 01 R24: arrivals. A port word enters the FIFO of its port while that has fewer than 16 words; stream words enter
the store behind the others while it has room, and a pending `qpopv` takes eight matching words; a parked thread with all its writes
performed gets them and runs; a thread asleep at a port, stream or send instruction executes it when what it waits for is there. -/
def Obligations.MeshArrivals : Prop :=
  ∀ (s : State) (m : Msg) (rest : List Msg),
    let g := s.focus.tile
    let e := (s.tile g).e
    (∀ v p, (s.home g).inbox = m :: rest → m.body = .portWord v p → (e.fifo.look p []).length < 16 →
      ∃ t, exec .portWord s = .next t ∧ Same s t ∧ (t.home g).inbox = rest ∧ (t.tile g).e.fifo.look p [] = e.fifo.look p [] ++ [(v, m.sent)] ∧
        ∀ q, q ≠ p → (t.tile g).e.fifo.look q [] = e.fifo.look q []) ∧
    (∀ v p, (s.home g).inbox = [m] → m.body = .portWord v p → 16 ≤ (e.fifo.look p []).length → exec .portWord s = .next s) ∧
    (∀ ws, (s.home g).inbox = m :: rest → m.body = .stream ws → e.store.length + ws.length ≤ 256 → (s.thread g 0).run.pend = [] →
      ∃ t, exec .streamData s = .next t ∧ Same s t ∧ (t.home g).inbox = rest ∧
        (t.tile g).e.store = e.store ++ ws.map (fun w => ⟨w, m.vc, m.src, m.sent⟩)) ∧
    (∀ b vd w0 w1 w2 w3 w4 w5 w6 w7, (s.home g).inbox = m :: rest → m.body = .stream [w0, w1, w2, w3, w4, w5, w6, w7] →
      e.store = [] → (s.thread g 0).run.pend = [⟨true, vd, 0, 0, .words b, false⟩] → b.vc = m.vc → (b.src = 0 ∨ b.src = m.src) →
      ∃ t p, exec .streamData s = .next t ∧ Same s t ∧ (t.tile g).e.store = [] ∧ (t.thread g 0).run.pend = [p] ∧ p.isDone = true ∧
        p.toV = true ∧ p.reg = vd ∧ vWords (BitVec.ofNat 512 p.value) = [w0, w1, w2, w3, w4, w5, w6, w7]) ∧
    (∀ p, s.me.run.ts = .parked → s.me.run.pend = [p] → p.isDone = true → p.dropped = false →
      ∃ t, exec .longLatencyParkResume s = .next t ∧
        Done s t (if p.toV then s.me.r else s.me.r.setX p.reg (BitVec.ofNat 64 p.value))
          (if p.toV then s.myTile.r.setV p.reg (BitVec.ofNat 512 p.value) else s.myTile.r) s.mem ∧
        t.me.run.ts = .running ∧ t.me.run.pend = []) ∧
    (∀ w s' i, s.me.run.ts = .sleeping → s.me.run.wait = some w → w.kind ≤ 1 → s.standsAt s' i → (meshBody i).isSome →
      classAllows s'.focus.thread i = true → exec .portStreamWake s = exec i s') ∧
    (∀ w s', s.me.run.ts = .sleeping → s.me.run.wait = some w → w.kind ≤ 1 →
      (∀ (o : CP) (x : Instr × POp) va e1 n1 vb e2 n2, x ∈ portForms o → s.standsAt s' x.1 → unbound s' o.k1 o.a = false → unbound s' o.k2 o.b = false →
        badPort s' o.k1 o.a = false → badPort s' o.k2 o.b = false → o.kd = false → s'.portHeld o = false →
        portSrc s' s'.myTile.e o.k1 o.a = .value va e1 n1 → portSrc s' e1 o.k2 o.b = .value vb e2 n2 → s'.settled o.s →
        ∃ t, exec .portStreamWake s = .next t ∧ Done s' t
          (((s'.me.r.raiseF (portResult x.2 va vb).2).setX o.d (portResult x.2 va vb).1).after s'.me.run.rep) s'.myTile.r s'.mem) ∧
      (∀ o, s.standsAt s' (.send o) → s'.heldOrder s'.focus.tile s'.focus.thread clsW (homeOfName (s'.getXn o.rs1 % 2 ^ 34)) = false →
        s'.canInject s'.focus.tile (o.rd % 16) 1 = true → s'.settled o.s →
        ∃ t, exec .portStreamWake s = .next t ∧ Done s' t (s'.me.r.after s'.me.run.rep) s'.myTile.r s'.mem))

/-- 07 R160, R164, R165: the link's own steps. A failed flit counts one retry and one replay; past 8 replays of one flit both routers
mark the link down, and each reports; a read of LINK_STAT gives and clears the retries; a write of an override entry takes effect. -/
def Obligations.LinksFailAndReport : Prop :=
  ∀ (s : State) (port n entry value : Nat),
    let g := s.focus.tile
    let r := s.myTile.rt
    (port < 4 → neighbour g port = some n → r.retries.look port 0 < 4294967295 → ∃ t, exec (.flitCrcReplay port) s = .next t ∧ Same s t ∧
      t.myTile.rt.retries.look port 0 = r.retries.look port 0 + 1 ∧ t.myTile.rt.replays.look port 0 = r.replays.look port 0 + 1) ∧
    (port < 4 → neighbour g port = some n → 8 < r.replays.look port 0 → ∃ t, exec (.linkDown port) s = .next t ∧ Same s t ∧
      t.linkIsDown g port = true ∧ t.linkIsDown n (opposite port) = true ∧
      t.reported g 0x23 port ∧ t.reported n 0x23 (opposite port)) ∧
    (neighbour g port = none → hasLink g port = true → 8 < r.replays.look port 0 → ∃ t, exec (.linkDown port) s = .next t ∧ Same s t ∧
      t.linkIsDown g port = true ∧ t.reported g 0x23 port) ∧
    (r.replays.look port 0 ≤ 8 → exec (.linkDown port) s = .next s) ∧
    (∃ t, exec (.linkStatRead port) s = .next t ∧ Same s t ∧
      t.ioRead = bit (r.linkDown.look port false) 63 + r.retries.look port 0 ∧ t.myTile.rt.retries.look port 0 = 0) ∧
    (entry < 16 → ∃ t, exec (.routeOvrWrite entry value) s = .next t ∧ Same s t ∧
      (t.ovrOf g).look entry 0 = BitVec.ofNat 64 (value / 16384 * 16384))

/-! The wide units -/

/-- 19 R402 to R404: `pwrhint` completes once the units it announces are awake, and they are awake then; while the step admits no further
wake of a cold unit it waits and its stall is counted; a unit unused for 1,024 cycles becomes cold; a stalled wake that finds room wakes
its instruction's units. -/
def Obligations.UnitsWakeInSteps : Prop :=
  ∀ (s : State) (o : CR) (matrix : Bool),
    let g := s.focus.tile
    let h := s.focus.thread
    let n := s.getXn o.rs1
    let c := clusterOf g
    let k := s.cluster c
    (h ≤ 1 → s.settled o.s → (1 ≤ n → s.warm g false = true) → (33 ≤ n → s.warm g true = true) →
      ∃ t, exec (.pwrhint o) s = .next t ∧ Done s t (s.me.r.after s.me.run.rep) s.myTile.r s.mem) ∧
    (h ≤ 1 → s.settled o.s → s.undisturbed → (k.stepN = 0 ∨ s.stepWakes c + 2 ≤ k.stepN) → (∀ j ∈ k.stallQ, j = threadIndex g h) →
      ∃ t, exec (.pwrhint o) s = .next t ∧ Done s t (s.me.r.after s.me.run.rep) s.myTile.r s.mem ∧
        (1 ≤ n → t.warm g false = true) ∧ (33 ≤ n → t.warm g true = true)) ∧
    (h ≤ 1 → 1 ≤ n → s.warm g false = false → k.stepN ≠ 0 → k.stepN ≤ s.stepWakes c → s.stalls g h = false →
      k.stalls < 4294967295 → s.me.run.clear → ∃ t, exec (.pwrhint o) s = .next t ∧ Same s t ∧ (t.cluster c).stalls = k.stalls + 1 ∧
        threadIndex g h ∈ (t.cluster c).stallQ) ∧
    ((if matrix then s.myTile.c.matUsed else s.myTile.c.vecUsed) + 1024 ≤ s.cyclesOf g →
      (if matrix then s.matBusy g else s.vecKept g) = false → ∃ t, exec (.unitCold matrix) s = .next t ∧ Same s t ∧ t.warm g matrix = false ∧
        t.warm g (!matrix) = s.warm g (!matrix)) ∧
    (∀ s' i, s.stalls g h = true → issue s = .go s' i →
      let k' := s'.cluster c
      (k'.stepN = 0 ∨ s'.stepWakes c + s'.wakesAhead c (threadIndex g h) < k'.stepN) →
      (s'.warm g false = false ∧ s'.warm g true = true ∧ (unitsNeeded s' i).1 = true) ∨ (s'.warm g false = true ∧ s'.warm g true = false ∧
        unitsNeeded s' i = (true, true)) ∨ (s'.warm g false = false ∧ unitsNeeded s' i = (true, false)) →
      ∃ t, exec .wakeAdmission s = .next t ∧ Same s' t ∧ t.warm g false = true ∧ ((unitsNeeded s' i).2 = true → t.warm g true = true) ∧
        t.stalls g h = false)

/-! Homes -/

/-- 12 R262, 13 R281, R289, 14 R296, R300, R303, 16 R351: a home performs the next request in one step and answers it: a load with the bytes' value,
a store with those bytes written, an AMO or a barrier arrival with the old or the arrival's value and the new word, an LR with a reservation
of its granule, a watched read with a watch where there is room; a read of path 0x02 at the edge gives the present content or an earlier one.
A read of a poisoned granule does nothing and answers poisoned, or is reported where no answer is awaited. No other byte and no register
changes. -/
def Obligations.HomesServeMemory : Prop :=
  ∀ (s : State) (home : Nat) (m : Msg) (q : MemReq) (rest : List Msg), s.nextAt home m q rest →
    (isTileHome home = true → q.addr + q.size ≤ 131072) → (isTileHome home = true ∨ isEdgeHome home = true) → 0 < q.size →
    let old := s.mem.readNat (homeKey home q.addr) q.size
    let bad := poisonedAt s home q.addr q.size
    let does (i : Instr) (new : Option Nat) (v : Nat) : Prop := ∃ t m', exec i s = .next t ∧ Done s t s.me.r s.myTile.r m' ∧
      (∀ d, new = some d → m' = s.mem.writeBytes (homeKey home q.addr) (natBytes q.size d) ∧ s.answers t home m q v false (s.readFrom home q)) ∧
      (new = none → m' = s.mem ∧ s.answers t home m q v false (s.readFrom home q))
    (∀ sg, q.op = .load sg → q.stream = false → bad = false → does (.memoryRequest home) none old) ∧
    (q.op = .fetch → q.stream = false → bad = false → does (.memoryRequest home) none old) ∧
    (q.op = .store → does (.memoryRequest home) (some q.data) 0) ∧
    (∀ op, q.op = .amo op → bad = false → does (.memoryRequest home) (some (amoResult op q.size old q.data)) old) ∧
    (q.op = .sc → bad = false → (q.local_ = true ∧ ⟨q.addr / 8, m.srcHome, m.sthr⟩ ∈ (s.home home).resv) →
      does (.memoryRequest home) (some q.data) 0) ∧
    (q.op = .sc → bad = false → ¬(q.local_ = true ∧ ⟨q.addr / 8, m.srcHome, m.sthr⟩ ∈ (s.home home).resv) →
      does (.memoryRequest home) none 1) ∧
    (q.op = .barrive → q.size = 8 → bad = false → does (.barrierArrival home) (some (barriveResult old).1) (barriveResult old).2) ∧
    (∀ sg, q.op = .load sg → q.stream = true → bad = false → ∃ t v, exec (.memoryRequest home) s = .next t ∧ Same s t ∧
      s.answers t home m q v false (s.readFrom home q) ∧
      (v = old ∨ (isEdgeHome home = true ∧ ∃ x ∈ s.olds.look (homeKey home (q.addr / 8 * 8)) [], v = x.1 / 256 ^ (q.addr % 8) % 256 ^ q.size) ∨
        (isEdgeHome home = true ∧ v = s.mem.readNat (homeKey home (q.addr / 8 * 8)) 8 / 256 ^ (q.addr % 8) % 256 ^ q.size))) ∧
    (q.op = .lr → bad = false → ∃ t, exec (.memoryRequest home) s = .next t ∧ Same s t ∧ s.answers t home m q old false (s.readFrom home q) ∧
      ⟨q.addr / 8, m.srcHome, m.sthr⟩ ∈ (t.home home).resv) ∧
    (∀ reg, q.op = .watch reg → bad = false → ∃ t, exec (.memoryRequest home) s = .next t ∧ Same s t ∧
      s.answers t home m q old false (s.readFrom home q) ∧
      (reg = true → (s.home home).watches.length < (if isTileHome home then 64 else 4096) →
        ⟨q.addr / 8, m.src, m.srcHome, m.sthr, q.id⟩ ∈ (t.home home).watches)) ∧
    (∀ i, (i = .memoryRequest home ∧ plainOp q.op = true) ∨ (i = .barrierArrival home ∧ q.op = .barrive) → q.op.reads = true → bad = true →
      (q.awaited = true → ∃ t, exec i s = .next t ∧ Same s t ∧ s.answers t home m q 0 true 0) ∧
      (q.awaited = false → ∃ t, exec i s = .next t ∧ Same s t ∧ s.answers t home m q 0 false 0 ∧ (isTileHome home = true → t.reported home 0x21 0)))

/-- 12 R265 to R268: at a tile, a request for windows 1 to 4 or 6 reads or writes the register it addresses, one for window 5 an
accumulator pair; the value or the acknowledgement is answered. A window 7 store's word enters the stream store while that has room. -/
def Obligations.WindowsReachRegisters : Prop :=
  ∀ (s : State) (home : Nat) (m : Msg) (q : MemReq) (rest : List Msg), isTileHome home = true →
    let w := q.addr / 1048576
    let off := q.addr % 1048576
    let d := BitVec.ofNat 64 q.data
    let r (h : Nat) : Regs := (s.thread home h).r
    let tr := (s.tile home).r
    let others (t : State) : Prop := ∀ g h, g ≠ home → (t.thread g h).r = (s.thread g h).r ∧ (t.tile g).r = (s.tile g).r
    let step (i : Instr) (t : State) : Prop := exec i s = .next t ∧ t.mem = s.mem ∧ others t ∧ s.answers t home m q 0 false 0
    (s.nextAt home m q rest → q.size = 8 →
      ((w = 1 ∨ w = 2 ∨ w = 3 ∨ w = 4 ∨ w = 6) → ∀ sg, q.op = .load sg → q.stream = false →
        ∃ t, exec (.registerWindowAccess home) s = .next t ∧ Same s t ∧ s.answers t home m q (readWindow s home w off) false 0) ∧
      (q.op = .store →
        ((w = 1 ∨ w = 2) → ∃ t, step (.registerWindowAccess home) t ∧ (t.thread home (w - 1)).r = (r (w - 1)).setX (off / 8) d ∧
          (t.thread home (2 - w)).r = r (2 - w) ∧ (t.tile home).r = tr) ∧
        (w = 3 → ∃ t, step (.registerWindowAccess home) t ∧ (t.thread home 0).r = (r 0).setF (off / 8) (BitVec.ofNat 32 q.data) ∧
          (t.thread home 1).r = r 1 ∧ (t.tile home).r = tr) ∧
        (w = 4 → ∃ t, step (.registerWindowAccess home) t ∧ (t.thread home 0).r = r 0 ∧ (t.thread home 1).r = r 1 ∧
          (t.tile home).r = tr.setV (off / 64) (vPut8 (tr.getV (off / 64)) (off % 64) q.data)) ∧
        (w = 6 → ∃ t, step (.registerWindowAccess home) t ∧ (t.thread home 0).r = r 0 ∧ (t.thread home 1).r = r 1 ∧
          (t.tile home).r = tr.setP (off / 8) d) ∧
        (w = 5 → ∃ t, step (.accumulatorWindowAccess home) t ∧ (t.thread home 0).r = r 0 ∧ (t.thread home 1).r = r 1 ∧
          (t.tile home).r = tr.setAcc (off / 2048) (off % 2048 / 128) (off % 128 / 8)
            (BitVec.ofNat 32 q.data, BitVec.ofNat 32 (q.data / 2 ^ 32)))) ∧
      (w = 5 → ∀ sg, q.op = .load sg → q.stream = false →
        ∃ t, exec (.accumulatorWindowAccess home) s = .next t ∧ Same s t ∧ s.answers t home m q
          ((tr.getAcc (off / 2048) (off % 2048 / 128) (off % 128 / 8)).1.toNat +
            (tr.getAcc (off / 2048) (off % 2048 / 128) (off % 128 / 8)).2.toNat * 2 ^ 32) false 0)) ∧
    ((s.home home).inbox = m :: rest → m.kind = 1 → m.body = .mem q → (s.tile home).e.store.length < 256 → (s.thread home 0).run.pend = [] →
      ∃ t, exec (.streamWindowStore home) s = .next t ∧ Same s t ∧ (t.tile home).e.store = (s.tile home).e.store ++ [⟨d, m.vc, m.src, m.sent⟩] ∧
        s.answers t home m q 0 false 0)

/-- 13 R291, 15 R316, R318, 10 R241, 17 R374: the copy engine's requests at a home. A claim is granted and removes every reservation in its
line; copy data write the run of bytes of their mask together, an empty one none, release the unit's claims and are acknowledged; an increment adds to its
counter and is acknowledged (a poisoned counter keeps its value and is reported, 16 R351); a request for a line that has moved goes on to its new home. -/
def Obligations.HomesServeCopies : Prop :=
  ∀ (s : State) (home : Nat) (m : Msg) (q : MemReq) (rest : List Msg),
    (s.nextAt home m q rest → q.op = .claim → ∃ t, exec (.copyClaim home) s = .next t ∧ Same s t ∧
      (t.home home).claims = (s.home home).claims ++ [⟨q.addr / 64, m.srcHome, q.id⟩] ∧ (t.home home).inbox = rest ∧
      ∀ x, x ∈ (t.home home).resv ↔ x ∈ (s.home home).resv ∧ x.granule / 8 ≠ q.addr / 64) ∧
    (∀ a mask data u, pickReq s home [] (s.home home).inbox = some (m, rest) → m.body = .copyLine a mask data u →
      forwardOf s home a = none → 0 < popN 64 mask → s.ringTile home = false →
      ∃ t, exec (.copyData home) s = .next t ∧ Done s t s.me.r s.myTile.r
          (s.mem.writeBytes (homeKey home (a / 64 * 64 + ctzN 64 mask)) (natBytes (popN 64 mask) (data / 256 ^ ctzN 64 mask))) ∧
        (∀ c ∈ (t.home home).claims, ¬(c.srcHome = m.srcHome ∧ c.unit = u)) ∧
        (s.passes home m.src m.srcHome → t.sent home 14 m.srcHome 4 (.resp u 0 0 false 0))) ∧
    (∀ a data u, pickReq s home [] (s.home home).inbox = some (m, rest) → m.body = .copyLine a 0 data u → forwardOf s home a = none →
      s.ringTile home = false → ∃ t, exec (.copyData home) s = .next t ∧ Same s t ∧
        (∀ c ∈ (t.home home).claims, ¬(c.srcHome = m.srcHome ∧ c.unit = u)) ∧
        (s.passes home m.src m.srcHome → t.sent home 14 m.srcHome 4 (.resp u 0 0 false 0))) ∧
    (s.nextAt home m q rest → q.op = .increment → poisonedAt s home q.addr 8 = true → ∃ t, exec (.copyIncrement home) s = .next t ∧ Same s t ∧
      t.reported home 0x21 0 ∧ (s.passes home m.src m.srcHome → t.sent home 14 m.srcHome 4 (.resp q.id 0 0 false 0))) ∧
    (s.nextAt home m q rest → q.op = .increment → poisonedAt s home q.addr 8 = false → ∃ t, exec (.copyIncrement home) s = .next t ∧ Done s t s.me.r s.myTile.r
        (s.mem.writeBytes (homeKey home q.addr) (natBytes 8 ((s.mem.readNat (homeKey home q.addr) 8 + q.data) % 2 ^ 64))) ∧
      (s.passes home m.src m.srcHome → t.sent home 14 m.srcHome 4 (.resp q.id 0 0 false 0))) ∧
    (∀ f, pickReq s home [] (s.home home).inbox = some (m, rest) → m.body = .mem q → forwardOf s home q.addr = some f →
      let pa := f.target + q.addr % 2097152
      let to_ := edgeHome (homeWafer home) (pa / 68719476736 % 128)
      to_ ≠ home → s.inSystem (homeWafer home) (homeWafer home) = true → m.vc ≤ 13 → s.homeRoom home 13 m.len = true →
      ∃ t m', exec (.forwardedAccess home) s = .next t ∧ Same s t ∧ (t.home home).inbox = rest ∧
        m' ∈ (t.tile (homeRouter home)).rt.bufs.look (bufKey (inPort home) m.vc false) [] ∧ m'.dstHome = to_ ∧ m'.src = m.src ∧ m'.srcHome = m.srcHome ∧
        m'.body = .mem { q with addr := pa % 68719476736 })

/-! Answers at the source -/

/-- 01 R22, 05 R102, 13 R281, 16 R338, R345: a response completes the access it answers: its register is written (x0 takes nothing; a
vector register in the lanes of the active elements alone, with the last element's answer), and the access is no longer outstanding. An element's
answer before the last is gathered, its failure kept where its address is the lowest so far, and taken with the last (16 R339). A poisoned answer to an awaited access
stops its thread with the report 0x21, of sub-cause 0 where the data are its own tile's; an access without an answer for 1,048,576 ns ends in
the report 0x05 where its thread waits for a value, or its ended task did, else in 0x07. A thread that stands within a vector access takes its
trap at the end of that (05 R106). -/
def Obligations.ResponsesCompleteAccesses : Prop :=
  ∀ (s : State) (m : Msg) (rest : List Msg) (id lane v at_ h : Nat) (poisoned : Bool) (o : Out),
    let g := s.focus.tile
    let r := (s.thread g h).r
    let gone (t : State) : Prop := ∀ x ∈ (t.thread g h).run.outs, x.id ≠ id
    let faults (u : State) (i : Instr) (cause sub : Nat) : Prop := (s.thread g h).run.accFailed = false →
      ∃ t, exec i s = .next t ∧ Wrote s t g h r ∧ gone t ∧
        ((u.cutOut g h id).midway g h = true → (t.thread g h).run.due ≠ []) ∧
        ((u.cutOut g h id).midway g h = false → (s.thread g h).run.ts = .running →
          (t.thread g h).run.ts = .stopped ∧ t.reported g cause sub)
    let stops (u : State) (i : Instr) (cause sub : Nat) : Prop := o.dst.silent = false → o.bad = none → faults u i cause sub
    let taken := s.modHome g (fun q => { q with inbox := rest })
    let sub := if m.srcHome = g then 0 else 1
    let kept (p : Out → Prop) : Prop := ∃ t, exec .memoryResponse s = .next t ∧ Wrote s t g h r ∧
      ∃ x ∈ (t.thread g h).run.outs, x.id = id ∧ x.parts = o.without lane ∧ p x
    s.outOf g id = some (h, o) → o.id = id → s.increments g id = none →
    ((s.home g).inbox = m :: rest → m.body = .resp id lane v poisoned at_ → o.without lane = [] →
      (poisoned = false → (∀ rd w sg, o.dst = .x rd w sg → ∃ t, exec .memoryResponse s = .next t ∧
          Wrote s t g h (r.setX rd (extendTo w sg v)) ∧ gone t) ∧
        (∀ rd, o.dst = .f rd → ∃ t, exec .memoryResponse s = .next t ∧ Wrote s t g h (r.setF rd (BitVec.ofNat 32 v)) ∧ gone t) ∧
        (∀ rd n, o.dst = .test rd n → ∃ t, exec .memoryResponse s = .next t ∧ Wrote s t g h (r.setX rd (if n ≤ v then 1 else 0)) ∧ gone t) ∧
        (∀ vd buf, o.dst = .v vd buf → o.bad = none → ∃ t, exec .memoryResponse s = .next t ∧ gone t ∧ t.mem = s.mem ∧
          (∀ g' h', (t.thread g' h').r = (s.thread g' h').r) ∧ (∀ g', g' ≠ g → (t.tile g').r = (s.tile g').r) ∧
          (t.tile g).r = (s.tile g).r.setV vd
            (mergeLanes ((s.tile g).r.getV vd) (vPutBytes buf (lane / 16) (lane % 16) v) (o.flats.map (fun p => p.1))))) ∧
      (o.dst.silent = true → ∃ t, exec .memoryResponse s = .next t ∧ Wrote s t g h r ∧ gone t) ∧
      (poisoned = true → stops taken .memoryResponse 0x21 sub) ∧
      (∀ vd buf x, o.dst = .v vd buf → o.bad = some x → poisoned = false → faults taken .memoryResponse x.2.1 x.2.2)) ∧
    ((s.home g).inbox = m :: rest → m.body = .resp id lane v poisoned at_ → o.without lane ≠ [] →
      (o.dst.silent = true → kept (fun _ => True)) ∧
      (∀ vd buf, o.dst = .v vd buf →
        (poisoned = false → kept (fun x => x.bad = o.bad ∧ x.dst = .v vd (vPutBytes buf (lane / 16) (lane % 16) v))) ∧
        (poisoned = true → kept (fun x => x.bad = some (worse o.bad (o.flatAt lane / 8 * 8, 0x21, sub)))))) ∧
    (s.now < o.issued + 1048576 → exec (.accessTimeout id) s = .next s) ∧
    (o.issued + 1048576 ≤ s.now → s.flown g o = o.parts → o.parts ≠ [] →
      (o.dst = .nowhere → ∃ t, exec (.accessTimeout id) s = .next t ∧ Wrote s t g h r ∧ gone t ∧ t.reported g 0x07 0x80) ∧
      (o.dst = .gone → o.bad = none → ∃ t, exec (.accessTimeout id) s = .next t ∧ Wrote s t g h r ∧ gone t ∧ t.reported g 0x05 0x80) ∧
      stops s (.accessTimeout id) 0x05 0x80)

/-- 07 R169, 01 R14, 16 R338: an error message of the tile's region, with the refused message's header. For a port word, a send or a record
it is recorded in `errword` of the sending thread (the first with its cause and name, a later one in OVF); for an awaited access the thread
stops with the report 0x05 whose sub-cause is the reason; for a posted access it is recorded, the island is told, and the access is
complete; so is a window 7 store with its error (13 R281). A refused message of the hardware is told to the island alone.
15 R320, 10 R244: for a message of a copy request it is recorded once, at the thread that pushed it, and the request is abandoned, its share
going back to the root (the CAUSE of a record with a stale name is the model's reading, assumption 115); for a borrow request the thread's
GIVE() goes on refused, and the island is told. -/
def Obligations.ErrorsReachTheSource : Prop :=
  ∀ (s : State) (m : Msg) (rest : List Msg) (reason : Nat) (q : Header) (id lane cls : Nat) (awaited : Bool),
    let g := s.focus.tile
    let noted (h cause : Nat) : Regs := { (s.thread g h).r with errword :=
      if (s.thread g h).r.errword.v then { (s.thread g h).r.errword with ovf := true } else { v := true, ovf := false, cause := cause, name := q.dst } }
    let u := s.modHome g (fun k => { k with inbox := rest })
    (s.home g).inbox = m :: rest → m.kind = 8 → m.body = .error reason q id lane awaited cls → isTileHome g = true → islandSlot (clusterOf g) = false →
    (m.region = s.regionIdOf g → q.kind ≤ 1 → cls ≠ 5 → ∃ t, exec .errorMessage s = .next t ∧
      Wrote s t g m.sthr (noted m.sthr (if reason = 1 then 2 else 5)) ∧ (t.home g).inbox = rest) ∧
    (m.region = s.regionIdOf g → q.kind = 2 → cls ≠ 2 → ∃ t, exec .errorMessage s = .next t ∧
      Wrote s t g m.sthr (noted m.sthr (if reason = 1 then 6 else 4)) ∧ (t.home g).inbox = rest) ∧
    (m.region ≠ s.regionIdOf g → q.kind = 2 → cls ≠ 2 → ∃ t, exec .errorMessage s = .next t ∧ Same s t ∧ (t.home g).inbox = rest) ∧
    (∀ h o, q.kind = 3 → cls = 0 → s.outOf g id = some (h, o) →
      (awaited = true → o.dst.silent = false → o.without lane = [] → o.bad = none → (s.thread g h).run.ts = .running →
        (s.thread g h).run.accFailed = false → (u.cutOut g h o.id).midway g h = false → ∃ t, exec .errorMessage s = .next t ∧
        Wrote s t g h (s.thread g h).r ∧ (t.thread g h).run.ts = .stopped ∧ t.reported g 0x05 reason) ∧
      (awaited = false → m.region = s.regionIdOf g → o.without lane = [] → ∃ t, exec .errorMessage s = .next t ∧
        Wrote s t g h (noted h (if reason = 1 then 1 else 5)) ∧ (reason, q.dst) ∈ (t.island (islandOf g)).notices ∧
        ∀ x ∈ (t.thread g h).run.outs, x.id ≠ o.id)) ∧
    (∀ h o, m.region = s.regionIdOf g → q.kind ≤ 1 → cls = 5 → s.outOf g id = some (h, o) → o.without lane = [] → ∃ t, exec .errorMessage s = .next t ∧
      Wrote s t g m.sthr (noted m.sthr (if reason = 1 then 2 else 5)) ∧ ∀ x ∈ (t.thread g h).run.outs, x.id ≠ o.id) ∧
    (q.kind = 4 ∨ q.kind = 6 ∨ 8 ≤ q.kind → ∃ t, exec .errorMessage s = .next t ∧ Same s t ∧ (reason, q.dst) ∈ (t.island (islandOf g)).notices) ∧
    (∀ c, q.kind = 3 → cls = 3 → s.increments g id = some c → s.entryOf g c.serial = some c → m.region = s.regionIdOf g →
      ∃ t, exec .errorMessage s = .next t ∧ Wrote s t g c.thread (noted c.thread (if reason = 1 then 3 else 5)) ∧ t.entryOf g c.serial = none) ∧
    (∀ x, (q.kind = 2 ∨ q.kind = 3 ∨ q.kind = 5) → cls = 2 → (s.tile g).e.units.find? (fun x => x.id == id) = some x →
      (∀ c, s.entryOf g x.serial = some c → m.region = s.regionIdOf g → ∃ t, exec .errorMessage s = .next t ∧
        Wrote s t g c.thread (noted c.thread (if q.kind = 2 then (if reason = 1 then 6 else 4) else if reason = 1 then 3 else 5)) ∧
        t.entryOf g x.serial = none ∧ (let e := s.domain (clusterOf g) c.dom
          weightBits c.share ≠ [] → e.state ≠ 0 → s.passes g e.root (nameTile e.root) →
            t.sent g 15 (nameTile e.root) 6 (.leavenReturn 0 c.dom))) ∧
      (s.entryOf g x.serial = none → ∃ t, exec .errorMessage s = .next t ∧ Same s t)) ∧
    (q.kind = 7 → q.aux / 16384 = 0 → id ≤ 1 → s.asksFor g id lane = true → ∃ t, exec .errorMessage s = .next t ∧ Same s t ∧
      (t.thread g id).run.give = .refused ∧ (reason, q.dst) ∈ (t.island (islandOf g)).notices)

/-! Tasks -/

/-- 08 R180 to R192, 10 R240: a record of the thread's own scratchpad enters its queue by `spawn`, and travels to the named tile's
cluster by `spawnt`, with the share of leaven that GIVE() takes; a launch message and an island's launch enter the queue of the tile's
cluster. A malformed record traps or is refused, one that the island launches is dropped with a report; while there is no room the instruction
waits. Only a spill place changes in memory. A thread with one unit left borrows: it asks the root and waits, and goes on without leaven where
it is refused, or where its domain is free (10 R244). -/
def Obligations.RecordsEnterQueues : Prop :=
  ∀ (s : State) (o : CR) (d0 d1 d2 : Nat) (m : Msg) (rest : List Msg),
    let g := s.focus.tile
    let h := s.focus.thread
    let c := clusterOf g
    let r := s.me.r
    let a := s.getXn o.rs1
    let q := recQueue d2
    let key (k : Nat) := padKey g (addrOff a + 8 * k)
    let dom := r.qwDom
    let onlySpill (m' : Memory) : Prop := ∀ k, (∀ p idx, ¬(spillKey s c p idx ≤ k ∧ k < spillKey s c p idx + 24)) → m'.read k = s.mem.read k
    let enters (t : State) (tr : TaskRec) : Prop := ∃ x ∈ (t.cluster c).queue q, x.tr = tr
    let onChip : Prop := (∀ x ∈ (s.cluster c).queue q, x.spill = none) ∧ ((s.cluster c).queue q).length < 256
    (pathOf a = 1 → addrName a = s.nameOf g → addrWin a = 0 → addrOff a + 32 ≤ 131072 → a % 8 = 0 →
      s.heldOrder g h clsR g = false → ownReady s g (addrOff a) 32 = true → mqConflict s ⟨g, addrOff a, s.nameOf g⟩ 32 false = false →
      (∀ k, k < 4 → poisonedAt s g (addrOff a + 8 * k) 8 = false) → isTileHome g = true →
      readRecord s a = if recBad (s.mem.readNat (key 1) 8) (s.mem.readNat (key 2) 8) then .trap 0x05 a
        else .ok (s.mem.readNat (key 0) 8) (s.mem.readNat (key 1) 8) (s.mem.readNat (key 2) 8)) ∧
    (h ≤ 1 → readRecord s a = .ok d0 d1 d2 →
      (s.heldOrder g h clsW g = false → s.roomFor c q = true → s.settled o.s → waferOf g < 64 → (r.qwV = false ∨ r.weight = 0) → ∃ t m', exec (.spawn o) s = .next t ∧
        Done s t (r.after s.me.run.rep) s.myTile.r m' ∧ onlySpill m' ∧
        (onChip → m' = s.mem ∧ enters t (s.newRec g d0 d1 (recWith d2 (s.regionIdOf g) false 0 0)))) ∧
      (s.heldOrder g h clsW g = false → s.roomFor c q = true → s.settled o.s → r.qwV = true → 2 ≤ r.weight → onChip → ∃ t, exec (.spawn o) s = .next t ∧
        Done s t (({ r with weight := r.weight - 2 ^ (Nat.log2 r.weight - 1) } : Regs).after s.me.run.rep) s.myTile.r s.mem ∧
        enters t (s.newRec g d0 d1 (recWith d2 (s.regionIdOf g) true (63 - Nat.log2 r.weight) dom))) ∧
      (s.roomFor c q = false → s.me.run.clear → ∃ t, exec (.spawn o) s = .next t ∧ Same s t) ∧
      (s.heldOrder g h clsW (nameTile (s.getXn o.rs2 % 2 ^ 34)) = false → s.canInject g 12 2 = true → s.settled o.s → (r.qwV = false ∨ r.weight = 0) → ∃ t, exec (.spawnt o) s = .next t ∧
        Done s t (r.after s.me.run.rep) s.myTile.r s.mem ∧
        (isTileHome g = true → s.passes g (s.getXn o.rs2 % 2 ^ 34) (nameTile (s.getXn o.rs2 % 2 ^ 34)) →
          t.sent g 12 (nameTile (s.getXn o.rs2 % 2 ^ 34)) 2 (.task d0 d1 (recWith d2 (s.regionIdOf g) false 0 0) 0))) ∧
      (s.heldOrder g h clsW (nameTile (s.getXn o.rs2 % 2 ^ 34)) = false → s.canInject g 12 2 = false → s.undisturbed → s.me.run.wait = none → ∃ t, exec (.spawnt o) s = .next t ∧ Same s t ∧
        t.sleepsWith 1 0 28 s.now) ∧
      (r.qwV = true → let e := s.domain c dom
        let free (home : Nat) : Prop := s.heldOrder g h clsW home = false
        ∀ i, (i = .spawn o ∧ free g ∧ s.roomFor c q = true) ∨
          (i = .spawnt o ∧ free (nameTile (s.getXn o.rs2 % 2 ^ 34)) ∧ s.canInject g 12 2 = true) →
        let ends (k : Nat) (p : State → Prop) : Prop := s.settled o.s → (i = .spawn o → onChip) →
          ∃ t, exec i s = .next t ∧ Done s t (({ r with weight := r.weight - k, qwV := decide (0 < r.weight - k) } : Regs).after s.me.run.rep) s.myTile.r s.mem ∧ p t
        (2 ≤ r.weight → i = .spawnt o → ends (2 ^ (Nat.log2 r.weight - 1)) (fun t => isTileHome g = true →
          s.passes g (s.getXn o.rs2 % 2 ^ 34) (nameTile (s.getXn o.rs2 % 2 ^ 34)) →
          t.sent g 12 (nameTile (s.getXn o.rs2 % 2 ^ 34)) 2 (.task d0 d1 (recWith d2 (s.regionIdOf g) false 0 0 + dom * 2 ^ 41) 0))) ∧
        (r.weight = 1 → s.me.run.give = .refused ∨ (s.me.run.give ≠ .asked ∧ e.state = 0) → ends 1 (fun _ => True)) ∧
        (r.weight = 1 → s.me.run.give = .asked → s.me.run.clear → ∃ t, exec i s = .next t ∧ Same s t) ∧
        (r.weight = 1 → s.me.run.give ≠ .asked → s.me.run.give ≠ .refused → e.state ≠ 0 → s.undisturbed → ∃ t, exec i s = .next t ∧ Same s t ∧
          t.me.run.give = .asked ∧ (isTileHome g = true → s.passes g e.root (nameTile e.root) → t.sent g 15 (nameTile e.root) 7 (.borrow 0 dom h))))) ∧
    (∀ cause b, h ≤ 1 → readRecord s a = .trap cause b → s.canTrap → ∀ i ∈ [Instr.spawn o, Instr.spawnt o],
      ∃ t, exec i s = .next t ∧ Trapped s t cause 0 b) ∧
    (∀ unit, (s.home g).inbox = m :: rest → m.kind = 2 → m.body = .task d0 d1 d2 unit → isTileHome g = true →
      (recBad d1 d2 = false → s.roomFor c q = true → onChip → ∃ t, exec .taskRecord s = .next t ∧ Same s t ∧
        enters t { s.newRec g d0 d1 (recWith d2 m.region m.lv m.lexp (recDom d2)) with sent := m.sent } ∧
        (unit = 0 → (t.home g).inbox = rest) ∧
        (0 < unit → s.passes g m.src m.srcHome → t.sent g 14 m.srcHome 4 (.resp (unit - 1) 0 0 false 0))) ∧
      (recBad d1 d2 = true → (isTileHome m.srcHome = true → s.staleName (waferOf g) m.src = false) → s.passes g m.src m.srcHome →
        let x := refusedInfo m
        ∃ t, exec .taskRecord s = .next t ∧ Same s t ∧ t.sent g 15 m.srcHome 8 (.error 4 m.header x.1 x.2.1 x.2.2.1 x.2.2.2)) ∧
      (recBad d1 d2 = false → s.roomFor c q = false → exec .taskRecord s = .next s)) ∧
    ((∀ x ∈ (s.island (islandOfCluster c)).heldRecs, x.1 ≠ c) → islandSlot c = false → recBad d1 d2 = false → s.roomFor c q = true → onChip →
      ∃ t, exec (.islandLaunch d0 d1 d2) s = .next t ∧ Same s t ∧ enters t (s.newRec g d0 d1 d2)) ∧
    ((∀ x ∈ (s.island (islandOfCluster c)).heldRecs, x.1 ≠ c) → islandSlot c = false → recBad d1 d2 = true →
      ∃ t, exec (.islandLaunch d0 d1 d2) s = .next t ∧ Same s t ∧ (0x60, c) ∈ (t.island (islandOfCluster c)).notices)

/-- 08 R193 to R195, 01 R26: `tend` of a thread alone ends its task: the thread is IDLE, its leaven has gone back, and its record's join
has been sent; so does that of a leader whose attached members are gone, which dissolves the gathering; a follower's `tend` leaves it as
`gleave` does, a detached one's leaven going back (09 R225, R229); `jdec` sends a decrement; a home counts a join down and answers, and at zero queues the counter's record; `taskinfo` gives
a value of the task or the cluster; a thread that the island starts has its registers zeroed and runs at the given offset. -/
def Obligations.TasksEndAndJoin : Prop :=
  ∀ (s : State) (o : CR) (home : Nat) (m : Msg) (q : MemReq) (rest : List Msg) (code : Nat),
    let g := s.focus.tile
    let h := s.focus.thread
    let r := s.me.r
    let a := s.getXn o.rs1
    let join (t : State) (a : Nat) : Prop := isTileHome g = true → s.passes g (addrName a) (nameTile (addrName a)) →
      s.canInject g 13 2 = true → (∀ u ∈ s.myTile.e.unsent, u.msg.vc ≠ 13) → s.me.run.fences = [] →
      ∃ q, t.sent g 13 (nameTile (addrName a)) 3 (.mem q) ∧ q.op = .jdec ∧ q.addr = addrWin a * 1048576 + addrOff a ∧ q.size = 8
    let key (k : Nat) := homeKey home (q.addr + 8 * k)
    let count := s.mem.readNat (key 0) 8
    (h = 0 → s.me.run.gather.role = .attached → exec (.tend o) s = exec (.gleave o) s) ∧
    (h = 0 → s.me.run.gather.role = .detached → s.switched = true → s.mayEnd = true → s.returnRoom g r.weight = true → s.roomToIssue g h = true →
      ∃ t, exec (.tend o) s = .next t ∧ Wrote s t g 0 ({ r with weight := 0 } : Regs).counted ∧ t.me.run.ts = .idle ∧
        t.me.run.gather.role = if s.me.run.gather.dissolved then .solo else .left) ∧
    (h = 0 → s.me.run.gather.role = .leader → s.switched = true → s.attachedOf g ≠ [] → s.me.run.clear →
      ∃ t, exec (.tend o) s = .next t ∧ Same s t) ∧
    (h ≤ 1 → s.me.run.gather.role = .solo ∨ (h = 0 ∧ s.me.run.gather.role = .leader ∧ s.attachedOf g = []) → s.switched = true → s.mayEnd = true →
      s.returnRoom g r.weight = true → s.roomToIssue g h = true → ∃ t, exec (.tend o) s = .next t ∧ Done s t ({ r with weight := 0 } : Regs).counted s.myTile.r s.mem ∧ t.me.run.ts = .idle ∧
        t.me.run.task = none ∧ ∀ k, s.me.run.task = some k → recJv k.tr.dw1 = true → join t (288230376151711744 + recJaddr k.tr.dw1)) ∧
    (h ≤ 1 → s.me.run.gather.role = .solo → s.switched = true → s.mayEnd = false → s.me.run.clear → ∃ t, exec (.tend o) s = .next t ∧ Same s t) ∧
    (h ≤ 1 → pathOf a = 1 → addrWin a = 0 → addrOff a + 40 ≤ 0x20000 → a % 8 = 0 →
      s.heldOrder g h (clsR + clsW) (nameTile (addrName a)) = false → s.roomToIssue g h = true → s.joinConflict a = false → s.settled o.s →
      ((r.qwV = false ∨ r.weight = 0) → ∃ t, exec (.jdec o) s = .next t ∧ Done s t (r.after s.me.run.rep) s.myTile.r s.mem ∧ join t a) ∧
      (r.qwV = true → 2 ≤ r.weight → ∃ t, exec (.jdec o) s = .next t ∧
        Done s t (({ r with weight := r.weight - 2 ^ (Nat.log2 r.weight - 1) } : Regs).after s.me.run.rep) s.myTile.r s.mem ∧ join t a)) ∧
    (h ≤ 1 → s.canTrap → (pathOf a ≠ 1 ∨ addrWin a ≠ 0 ∨ 0x20000 < addrOff a + 40) →
      ∃ t, exec (.jdec o) s = .next t ∧ Trapped s t 0x07 0 a) ∧
    (h ≤ 1 → s.canTrap → pathOf a = 1 → addrWin a = 0 → addrOff a + 40 ≤ 0x20000 → a % 8 ≠ 0 →
      ∃ t, exec (.jdec o) s = .next t ∧ Trapped s t 0x06 0 a) ∧
    (∀ v, h ≤ 1 → taskinfoValue s o.rs1 = some v → s.settled o.s →
      ∃ t, exec (.taskinfo o) s = .next t ∧ Done s t ((r.setX o.rd (BitVec.ofNat 64 v)).after s.me.run.rep) s.myTile.r s.mem) ∧
    (h ≤ 1 → taskinfoValue s o.rs1 = none → s.canTrap → ∃ t, exec (.taskinfo o) s = .next t ∧ Trapped s t 0x02 0 0) ∧
    (s.nextAt home m q rest → q.op = .jdec → isTileHome home = true → poisonedAt s home q.addr 40 = false →
      (2 ≤ count → ∃ t, exec (.joinDecrement home) s = .next t ∧
        Done s t r s.myTile.r (s.mem.writeBytes (key 0) (natBytes 8 (count - 1))) ∧ s.answers t home m q 0 false 0) ∧
      (count = 0 → ∃ t, exec (.joinDecrement home) s = .next t ∧ Same s t ∧ (0x62, s.nameOf home) ∈ (t.island (islandOf home)).notices) ∧
      (let d1 := s.mem.readNat (key 2) 8
       let d2 := s.mem.readNat (key 3) 8
       let c := clusterOf home
       count = 1 → q.addr + 40 ≤ 131072 → recBad d1 d2 = false → m.region = s.regionIdOf home →
       (∀ x ∈ (s.cluster c).queue (recQueue d2), x.spill = none) → ((s.cluster c).queue (recQueue d2)).length < 256 →
       ∃ t, exec (.joinDecrement home) s = .next t ∧ Done s t r s.myTile.r (s.mem.writeBytes (key 0) (natBytes 8 0)) ∧
         ∃ x ∈ (t.cluster c).queue (recQueue d2), x.tr.frame = s.mem.readNat (key 1) 8 ∧ x.tr.dw1 = d1 ∧
           x.tr.dw2 = recWith d2 (s.regionIdOf home) m.lv m.lexp (m.aux % 64))) ∧
    (h ≤ 1 → islandSlot (clusterOf g) = false → s.takeable g h = true → s.regionIdOf g < 256 →
      ∃ t, exec (.islandThreadStart code) s = .next t ∧ t.me.run.ts = .running ∧ t.me.run.task = none ∧
        t.me.r.pc = s.pcAt g (code % 131072 / 4 * 4) ∧ (∀ n, t.me.r.getX n = 0) ∧ t.me.r.weight = 0 ∧ t.mem = s.mem ∧
        ∀ g' h', ¬(g' = g ∧ h' = h) → (t.thread g' h').r = (s.thread g' h').r)

/-! Barrier words and counters -/

/-- 14 R298 to R303, of a word in the thread's own scratchpad: `barrive` adds an arrival and gives the phase, with bit 16 where it
completed the barrier; `ctest` compares a counter; `bwait` and `cwaitge` complete where the condition holds, and else sleep with a watch
at the home, which its wake or a retry lets read again. At another address each completes, or goes on waiting, with its request on its way,
traps as its checks say, or waits for a walk. -/
def Obligations.BarriersAndCounters : Prop :=
  ∀ (s : State) (o : CR) (m : Msg) (rest : List Msg) (v : Nat) (s' : State),
    let g := s.focus.tile
    let h := s.focus.thread
    let r := s.me.r
    let a := s.getXn o.rs1
    let key := padKey g (addrOff a)
    let old := s.mem.readNat key 8
    let here : Prop := h ≤ 1 ∧ s.ownBytes a 8 ∧ s.ownFree (addrOff a) 8 true ∧ poisonedAt s g (addrOff a) 8 = false
    let watched (t : State) : Prop := (s.home g).watches.length < 64 → ∃ w ∈ (t.home g).watches, w.granule = addrOff a / 8 ∧ w.srcHome = g ∧
      w.thread = h ∧ w.id = t.me.run.phaseVal
    let waits (i : Instr) (kind value : Nat) (met : Prop) : Prop := here → s.me.run.answer = none → s.me.reading = false →
      (met → s.settled o.s → ∃ t, exec i s = .next t ∧ Done s t (r.after s.me.run.rep) s.myTile.r s.mem) ∧
      (¬met → s.undisturbed → s.me.run.wait = none → ∃ t, exec i s = .next t ∧ Same s t ∧ t.sleepsWith kind a value s.now ∧ watched t)
    let u := s.modHome g (fun q => { q with inbox := rest })
    (here → s.settled o.s → ∃ t m', exec (.barrive o) s = .next t ∧
      Done s t ((r.setX o.rd (BitVec.ofNat 64 (barriveResult old).2)).after s.me.run.rep) s.myTile.r m' ∧
      m' = s.mem.writeBytes key (natBytes 8 (barriveResult old).1)) ∧
    (here → s.settled o.s → ∃ t, exec (.ctest o) s = .next t ∧
      Done s t ((r.setX o.rd (if s.getXn o.rs2 ≤ old then 1 else 0)).after s.me.run.rep) s.myTile.r s.mem) ∧
    (h ≤ 1 →
      s.accesses (.barrive o) a 8 .atomic o.s (fun p => { mkReq .barrive p 8 0 a with awaited := o.rd != 0 })
        (if o.rd = 0 then .nowhere else .x o.rd 8 false) false (fun _ _ => clsR + clsW) ∧
      (lrAllowed a = true → s.accesses (.ctest o) a 8 .probe o.s (fun p => mkReq (.watch false) p 8 0 a) (.test o.rd (s.getXn o.rs2)) false
        (fun _ _ => clsR)) ∧
      (lrAllowed a = false → s.canTrap → ∃ t, exec (.ctest o) s = .next t ∧ Trapped s t 0x05 0 a) ∧
      ∀ i ∈ [Instr.bwait o, .cwaitge o], s.me.held = false → s.me.run.answer = none → s.me.reading = false → lrAllowed a = true →
        ∀ p, target s a 8 .probe = .place p → (p.home = g → poisonedAt s g p.addr 8 = false) → mqConflict s p 8 false = false →
          ownNow s g h 8 p (classOf a p clsR) = false → s.roomToIssue g h = true → s.undisturbed →
          ∃ t, exec i s = .next t ∧ Same s t ∧ s.requested t p (mkReq (.watch true) p 8 0 a) .watch false clsR) ∧
    waits (.bwait o) 3 (s.getXn o.rs2 % 65536) (old / 2 ^ 48 ≠ s.getXn o.rs2 % 65536) ∧
    waits (.cwaitge o) 2 (s.getXn o.rs2) (s.getXn o.rs2 ≤ old) ∧
    ((s.home g).inbox = m :: rest → m.body = .wake s.me.run.phaseVal v → m.sthr = h → s.me.reading = false → s.me.run.answer = none →
      s.waitsWord = true → ((u.standsAt s' (.bwait o) ∧ (bwaitFor o s').met v = true) ∨ (u.standsAt s' (.cwaitge o) ∧ (cwaitFor o s').met v = true)) →
      s'.settled o.s → ∃ t, exec .watchWake s = .next t ∧ Done s' t (s'.me.r.after s'.me.run.rep) s'.myTile.r s'.mem) ∧
    (∀ id, (s.home g).inbox = m :: rest → m.body = .wake id v → m.sthr = h → id ≠ s.me.run.phaseVal →
      ∃ t, exec .watchWake s = .next t ∧ Same s t ∧ (t.home g).inbox = rest) ∧
    (s.waitsWord = true → s.me.reading = false → s.watched g h = false → s.me.run.watchAt + 1024 ≤ s.now → (s.home g).inbox = [] →
      s'.me.run.answer = none → s'.me.reading = false → s'.focus.thread ≤ 1 →
      (s.standsAt s' (.bwait o) → exec .watchRetry s = exec (.bwait o) s') ∧
      (s.standsAt s' (.cwaitge o) → exec .watchRetry s = exec (.cwaitge o) s') ∧
      ∀ i w, ((i = .bwait o ∧ w = bwaitFor o s') ∨ (i = .cwaitge o ∧ w = cwaitFor o s')) → s.standsAt s' i →
        s'.ownBytes w.addr 8 → s'.ownFree (addrOff w.addr) 8 true → poisonedAt s' s'.focus.tile (addrOff w.addr) 8 = false →
        w.met (s'.mem.readNat (padKey s'.focus.tile (addrOff w.addr)) 8) = true → s'.settled o.s →
        ∃ t, exec .watchRetry s = .next t ∧ Done s' t (s'.me.r.after s'.me.run.rep) s'.myTile.r s'.mem)

/-! Quiescence -/

/-- 10 R245 to R249: `qwheld` gives the held weight, `qwret` returns it; `qwait` gives 2 for a domain that is not in use, 0 for a QUIET
one, and else sleeps as a watcher at the root; `qwdone` frees a QUIET domain, and retires a LOST one; `qwroot` asks the policing island
for a domain and sleeps. -/
def Obligations.QuiescenceInstructions : Prop :=
  ∀ (s : State) (o : CR), s.focus.thread ≤ 1 →
    let g := s.focus.tile
    let h := s.focus.thread
    let r := s.me.r
    let d := s.getXn o.rs1
    let st := (s.rootState g d).1
    let rc := clusterOf (s.rootState g d).2
    let mine := r.qwV = true ∧ r.qwDom = d ∧ 0 < r.weight
    let gives (i : Instr) (r' : Regs) : Prop := ∃ t, exec i s = .next t ∧ Done s t (r'.after s.me.run.rep) s.myTile.r s.mem
    let fresh : Prop := s.undisturbed ∧ s.me.run.wait = none
    (s.settled o.s → gives (.qwheld o) (r.setX o.rd (BitVec.ofNat 64 r.weight))) ∧
    (s.settled o.s → s.returnRoom g r.weight = true → gives (.qwret o) { r with weight := 0 }) ∧
    (s.returnRoom g r.weight = false → s.me.run.clear → ∃ t, exec (.qwret o) s = .next t ∧ Same s t) ∧
    (s.settled o.s → (63 < d ∨ (¬mine ∧ (st = 0 ∨ st = 4))) → gives (.qwait o) (r.setX o.rd 2)) ∧
    (s.settled o.s → d ≤ 63 → ¬mine → st = 2 → s.switched = true → fenceWaits s 2 5 = false → gives (.qwait o) (r.setX o.rd 0)) ∧
    (d ≤ 63 → ¬mine → (st = 1 ∨ st = 3) → fresh → ∃ t, exec (.qwait o) s = .next t ∧ Same s t ∧ t.sleepsWith 4 0 d s.now ∧
      (d, g, h) ∈ (t.cluster rc).quietWatch) ∧
    (d ≤ 63 → mine → s.returnRoom g r.weight = true → ∃ t, exec (.qwait o) s = .next t ∧ t.me.r.weight = 0 ∧ t.mem = s.mem) ∧
    (63 < d → s.canTrap → ∃ t, exec (.qwdone o) s = .next t ∧ Trapped s t 0x02 0 0) ∧
    (d ≤ 63 → st = 1 → fresh → ∃ t, exec (.qwdone o) s = .next t ∧ Same s t ∧ t.sleepsWith 4 0 d s.now ∧
      (64 + d, g, h) ∈ (t.cluster rc).quietWatch) ∧
    (d ≤ 63 → s.settled o.s → st ≠ 1 → gives (.qwdone o) r) ∧
    (d ≤ 63 → s.settled o.s → st = 2 → ∃ t, exec (.qwdone o) s = .next t ∧ ∀ c ∈ s.domClusters (s.regionOf g) rc, (t.domain c d).state = 0) ∧
    (d ≤ 63 → s.settled o.s → st = 3 → ∃ t, exec (.qwdone o) s = .next t ∧ (t.domain rc d).state = 4) ∧
    (s.me.run.phase ≠ 4 → fresh → ∃ t, exec (.qwroot o) s = .next t ∧ Same s t ∧ t.sleepsWith 6 0 (2 ^ 64 - 1) s.now ∧
      (let i := islandHome (s.policing (s.regionOf g) (islandOf g))
       isTileHome g = true → s.passes g (s.homeName i) i → t.sent g 15 i 9 .allocate))

/-- 10 R238, R246 to R249: what answers the quiescence instructions. The island gives the lowest domain that is FREE in every cluster of the
region to the asking tile, its root, or answers that there is none; the reply completes `qwroot` with the whole weight (a stopped thread keeps it); the root's message
completes `qwait`; the island makes a domain LOST, or frees a RETIRED one. -/
def Obligations.QuiescenceAnswers : Prop :=
  ∀ (s : State) (m : Msg) (rest : List Msg) (island d v st region value : Nat) (s' : State) (o : CR),
    let i := islandHome island
    let gs := m.srcHome
    let cs := s.domClusters (s.regionOf gs) (clusterOf gs)
    let isFree (d : Nat) : Bool := cs.all (fun c => (s.domain c d).state == 0)
    let g := s.focus.tile
    let u := s.modHome g (fun q => { q with inbox := rest })
    ((s.home i).inbox = m :: rest → m.body = .allocate → s.callerWaits m inQwroot = true → s.passes i m.src gs →
      (d < 64 → isFree d = true → (∀ k, k < d → isFree k = false) →
        ∃ t, exec (.domainAllocationRequest island) s = .next t ∧ Same s t ∧ t.sent i 15 gs 9 (.callReply d 0) ∧
          ∀ c ∈ cs, (t.domain c d).state = 1 ∧ (t.domain c d).root = m.src ∧ (t.domain c d).home = 0 ∧
            ((t.domain c d).here = true ↔ c = clusterOf gs)) ∧
      ((∀ k, k < 64 → isFree k = false) →
        ∃ t, exec (.domainAllocationRequest island) s = .next t ∧ Same s t ∧ t.sent i 15 gs 9 (.callReply 127 0))) ∧
    ((s.home i).inbox = [m] → m.body = .allocate → s.callerWaits m inQwroot = false → exec (.domainAllocationRequest island) s = .next s) ∧
    (s.replyKept inQwroot = none → callAnswer s 4 = some (m, rest) → m.body = .callReply v 0 →
      (s.me.callOpen inQwroot m.seq = true → s.me.run.ts = .sleeping → s.returnRoom g s.me.r.weight = true →
        (u.modMe (·.takeReply v 0)).standsAt s' (.qwroot o) → s'.settled o.s →
        ∃ t, exec .domainAllocationReply s = .next t ∧ Done s' t (((if v < 64 then
          ({ s'.me.r with qwV := true, qwDom := v, weight := 2 ^ 62 } : Regs) else s'.me.r).setX o.rd
            (BitVec.ofNat 64 (if v < 64 then v else 2 ^ 63))).after s'.me.run.rep) s'.myTile.r s'.mem) ∧
      (s.me.callOpen inQwroot m.seq = true → s.me.run.ts ≠ .sleeping →
        ∃ t, exec .domainAllocationReply s = .next t ∧ Same s t ∧ t.me.run.answer = some v) ∧
      (s.me.callOpen inQwroot m.seq = false → ∃ t, exec .domainAllocationReply s = .next t ∧ Same s t ∧ (t.home g).inbox = rest)) ∧
    (∀ w, (s.home g).inbox = m :: rest → m.body = .quiet d st → m.sthr = s.focus.thread → s.me.run.ts = .sleeping →
      s.me.run.wait = some w → w.kind = 4 → w.value = d → st ≤ 1 →
      (st = 0 → s.me.pendDone = true ∧ fenceWaits s 2 5 = false ∧ s'.switched = true ∧ fenceWaits s' 2 5 = false) →
      u.standsAt s' (.qwait o) → s'.settled o.s → ∃ t, exec .quiescenceWake s = .next t ∧
        Done s' t ((s'.me.r.setX o.rd (BitVec.ofNat 64 st)).after s'.me.run.rep) s'.myTile.r s'.mem) ∧
    (∀ c, (s.regClusters region).find? (fun c => (s.domain c d).here) = some c →
      ((s.domain c d).state = 1 → value / 2 ^ 61 % 8 = 3 → clusterOf (nameTile (s.domain c d).root) = c →
        ∃ t, exec (.domainStateWrite region d value) s = .next t ∧ Same s t ∧ (t.domain c d).state = 3) ∧
      ((s.domain c d).state = 4 → value / 2 ^ 61 % 8 = 0 →
        ∃ t, exec (.domainStateWrite region d value) s = .next t ∧ Same s t ∧ (t.domain c d).state = 0))

/-- 10 R243, R244, R252 to R258: leaven at a root. A return adds to HOME, and at the whole weight the domain is QUIET; more than the whole
makes it LOST. A borrow is granted 2^40 units while HOME may fall, waits while it may not, and is refused by a cluster that is no root. The
grant and the refusal reach the thread that waits for that domain; a grant that comes too late gives it nothing. A region that has hung for its window is reported once. -/
def Obligations.LeavenAtTheRoot : Prop :=
  ∀ (s : State) (m : Msg) (rest : List Msg) (home d thr region : Nat),
    let c := clusterOf home
    let e := s.domain c d
    let w := shareOf m.lexp
    let g := s.focus.tile
    let at' (b : Payload) : Prop := (s.home home).inbox = m :: rest ∧ m.body = b ∧ isTileHome home = true
    (at' (.leavenReturn 0 d) → m.kind = 6 → m.lv = true → e.here = true → e.state = 1 → (s.cluster c).borrows = [] →
      (e.home + w ≤ 2 ^ 62 → ∃ t, exec (.leavenReturn home) s = .next t ∧ Same s t ∧ (t.domain c d).home = e.home + w ∧
        (t.domain c d).state = if e.home + w = 2 ^ 62 then 2 else 1) ∧
      (2 ^ 62 < e.home + w → ∃ t, exec (.leavenReturn home) s = .next t ∧ Same s t ∧ (t.domain c d).state = 3)) ∧
    (at' (.leavenReturn 1 d) → m.kind = 6 → m.lv = true → e.state ≠ 0 → ∃ t, exec (.leavenReturn home) s = .next t ∧ Same s t ∧
      (s.staleName (homeWafer home) e.root = true → (0x40, d) ∈ (t.island (islandOf home)).notices) ∧
      (s.staleName (homeWafer home) e.root = false → s.passes home e.root (nameTile e.root) → t.sent home 15 (nameTile e.root) 6 (.leavenReturn 0 d))) ∧
    (at' (.borrow 0 d thr) → e.here = true → e.state = 1 → (s.cluster c).borrows = [] →
      (-(2 : Int) ^ 62 ≤ e.home - 2 ^ 40 → ∃ t, exec (.borrowRequest home) s = .next t ∧ Same s t ∧
        (t.domain c d).home = e.home - 2 ^ 40 ∧ (s.passes home m.src m.srcHome → t.sent home 15 m.srcHome 7 (.borrow 1 d thr))) ∧
      (e.home - 2 ^ 40 < -(2 : Int) ^ 62 → ∃ t, exec (.borrowRequest home) s = .next t ∧ Same s t ∧ (t.cluster c).borrows = [m])) ∧
    (at' (.borrow 0 d thr) → e.here = false → ∃ t, exec (.borrowRequest home) s = .next t ∧ Same s t ∧
      (s.passes home m.src m.srcHome → t.sent home 15 m.srcHome 7 (.borrow 2 d thr))) ∧
    ((s.home g).inbox = m :: rest → m.body = .borrow 1 d s.focus.thread → m.aux % 64 = d → s.focus.thread ≤ 1 →
      (s.asksFor g s.focus.thread d = true → ∃ t, exec .borrowGrant s = .next t ∧
        Wrote s t g s.focus.thread { s.me.r with weight := s.me.r.weight + w } ∧ t.me.run.give = .granted ∧ (t.home g).inbox = rest) ∧
      (s.asksFor g s.focus.thread d = false → ∃ t, exec .borrowGrant s = .next t ∧ Same s t ∧ t.me.run.give = s.me.run.give)) ∧
    ((s.home g).inbox = m :: rest → m.body = .borrow 2 d s.focus.thread → m.aux % 64 = d → s.focus.thread ≤ 1 →
      s.asksFor g s.focus.thread d = true →
      ∃ t, exec .borrowRefusal s = .next t ∧ Same s t ∧ t.me.run.give = .refused ∧ (t.home g).inbox = rest) ∧
    (s.hung region = true → (s.region region).hangWindow ≠ 0 → (s.region region).hangRaised = false →
      (s.region region).hangWindow ≤ s.hungFor region → (∀ x ∈ s.postedWaits region, x.2.2.kind ≠ 4) →
      ∃ t, exec (.hangWindowExpiry region) s = .next t ∧ Same s t ∧ (t.region region).hangRaised = true ∧
        ∃ x ∈ (t.island (s.policing region (region / 256 * 48))).hangs, x.region = region % 256 ∧ x.time = s.now) ∧
    (s.hung region = false → exec (.hangWindowExpiry region) s = .next s)

/-! Gatherings -/

/-- 09 R220 to R230: forming and leaving. A `gjoin` that passes its check makes the thread the leader of n tiles; member k is attached and
runs at the next word of its own scratchpad with the leader's x registers, and every member finds 16 · n + k in rd; one that fails pends
its reason and claims no tile. A leader without attached members completes `gleave`, alone again; a follower without outstanding results
completes it and becomes IDLE where it is attached or its gathering has dissolved, LEFT otherwise. `grejoin` and `gsync` are no-ops outside a gathering, and an attached member waits in them, as the leader does until all are ready, and a detached one in `grejoin`. `ginfo` pends the masks.
09 R227, R228: the completions together. When every attached member waits in the leader's `gsync`, the leader and all of them complete
it in one step; when every member is in `grejoin`, the detached ones are attached again at the word after the leader's. -/
def Obligations.GatheringsFormAndMeet : Prop :=
  (∀ (s : State) (o : CR), s.focus.thread = 0 →
    let g := s.focus.tile
    let r := s.me.r
    let n := s.getXn o.rs1
    let ga := s.me.run.gather
    let plain : Prop := o.s = false ∧ s.me.run.rep = none
    let idle (i : Instr) : Prop := ∃ t, exec i s = .next t ∧ Done s t (r.after s.me.run.rep) s.myTile.r s.mem
    let pends (i : Instr) (v : Nat) : Prop := ∃ t, exec i s = .next t ∧ Done s t (r.after none) s.myTile.r s.mem ∧
      t.me.run.pend = s.me.run.pend ++ [⟨false, o.rd, v, 0, .done, false⟩]
    let waits (i : Instr) : Prop := s.undisturbed → s.me.run.wait = none → ∃ t, exec i s = .next t ∧ Same s t ∧ t.sleepsWith 3 0 0 s.now
    (plain → s.switched = true → s.me.run.clear → joinCheck s n ≠ 0 → pends (.gjoin o) (2 ^ 63 + joinCheck s n)) ∧
    (plain → s.switched = true → s.me.run.clear → joinCheck s n = 0 → n = 1 → pends (.gjoin o) 16) ∧
    (plain → s.switched = true → joinCheck s n = 0 → n ≠ 1 → s.undisturbed → ∃ t, exec (.gjoin o) s = .next t ∧ t.mem = s.mem ∧
      t.me.r = r.after none ∧ t.me.run.gather.role = .leader ∧ t.me.run.gather.size = n ∧
      t.me.run.pend = s.me.run.pend ++ [⟨false, o.rd, 16 * n, 0, .done, false⟩] ∧
      ∀ k, 1 ≤ k → k < n →
        (t.thread (g + k) 0).run.ts = .running ∧ (t.thread (g + k) 0).run.gather.role = .attached ∧
        (t.thread (g + k) 0).run.gather.leader = g ∧ (t.thread (g + k) 0).run.gather.index = k ∧
        (t.thread (g + k) 0).r.pc = s.pcAt (g + k) (pcOff r.pc + 4) ∧ (t.thread (g + k) 0).r.weight = 0 ∧
        ∀ x, (t.thread (g + k) 0).r.getX x = if x = o.rd ∧ x ≠ 0 then BitVec.ofNat 64 (16 * n + k) else r.getX x) ∧
    (s.settled o.s → ga.role = .solo → idle (.gleave o) ∧ idle (.grejoin o) ∧ idle (.gsync o)) ∧
    (s.settled o.s → ga.role = .leader → s.attachedOf g = [] → ∃ t, exec (.gleave o) s = .next t ∧
      Done s t (r.after s.me.run.rep) s.myTile.r s.mem ∧ t.me.run.gather.role = .solo) ∧
    (s.me.run.clear → ga.role = .leader → s.attachedOf g ≠ [] → ∃ t, exec (.gleave o) s = .next t ∧ Same s t) ∧
    (ga.role = .attached ∨ (ga.role = .detached ∧ ga.dissolved = true) → s.mayEnd = true → ∃ t, exec (.gleave o) s = .next t ∧
      Wrote s t g 0 r.counted ∧ t.me.run.ts = .idle ∧ t.me.run.gather.role = .solo) ∧
    (ga.role = .detached → ga.dissolved = false → s.mayEnd = true → ∃ t, exec (.gleave o) s = .next t ∧ Wrote s t g 0 r.counted ∧
      t.me.run.ts = .idle ∧ t.me.run.gather.role = .left) ∧
    (ga.role = .detached → ga.dissolved = true → exec (.grejoin o) s = exec (.gleave o) s) ∧
    (ga.role = .attached → waits (.grejoin o) ∧ waits (.gsync o)) ∧
    (ga.role = .leader → (s.gsyncReady g = false → waits (.gsync o)) ∧ (s.grejoinReady g = false → waits (.grejoin o))) ∧
    (ga.role = .detached → (ga.dissolved = false → waits (.grejoin o)) ∧ (s.settled o.s → idle (.gsync o))) ∧
    (s.settled o.s → ga.role = .leader → s.attachedOf g = [] → s.performedAll g = true → idle (.gsync o)) ∧
    (s.settled o.s → ga.role = .leader → s.attachedOf g = [] → s.membersIn g .detached = [] → s.resultsIn g = true →
      s.myTile.e.mq = [] → idle (.grejoin o)) ∧
    (plain → s.me.run.livePend.length < 8 → s.me.run.clear → pends (.ginfo o) (ginfoWord s g)) ∧
    (ga.role = .solo → ginfoWord s g = 2 ^ 48 + 1)) ∧
  (∀ (s s' : State) (o : CR), s.focus.thread = 0 →
    let g := s.focus.tile
    let past (t : State) (m : Nat) : Prop := (s'.thread m 0).run.pend = [] → (t.thread m 0).r = (s'.thread m 0).r.after (s'.thread m 0).run.rep
    s.me.run.gather.role = .leader → s'.focus.tile = g → s'.focus.thread = 0 →
    (s.waitsIn g 3 = true → s.gsyncReady g = true → s.standsAt s' (.gsync o) →
      ∃ t, exec .gsyncRelease s = .next t ∧ t.mem = s'.mem ∧ past t g ∧ ∀ m ∈ s'.attachedOf g, past t m) ∧
    (s.waitsIn g 2 = true → s.grejoinReady g = true → s.standsAt s' (.grejoin o) →
      ∃ t, exec .grejoinReunion s = .next t ∧ t.mem = s'.mem ∧ past t g ∧ (∀ m ∈ s'.attachedOf g, past t m) ∧
        ∀ m ∈ s'.membersIn g .detached, (t.thread m 0).run.gather.role = .attached ∧
          pcOff (t.thread m 0).r.pc = pcOff (s'.thread g 0).seqNext.r.pc) ∧
    (s.waitsIn g 3 = false → exec .gsyncRelease s = .next s) ∧ (s.waitsIn g 2 = false → exec .grejoinReunion s = .next s))

/-! The policy engine -/

/-- 08 R199 to R211: decisions. With its recipe disabled a cluster's DISPATCH decision starts the one waiting record on the thread that
R206 chooses, with the registers R196 gives it, and so does a recipe that picks it; one that charges a task's region lowers its budget, not below
zero; one that evicts a running task stops it; a recipe that ends with nothing picked, evicted or charged writes its scratch registers;
one that passes only takes its event away; one that would overrun decides nothing until its overrun is counted. A FAULT action ends the task
of the faulting thread. A record over its age starts on a free thread whatever the recipe. -/
def Obligations.PolicyDecides : Prop :=
  ∀ (s : State) (c q : Nat) (x : QRec) (ev : PEvent) (d : Dec) (g' h' : Nat),
    let k := s.cluster c
    let s2 := s.dropEvent c ev
    let tr := x.tr
    let starts (i : Instr) : Prop := ∃ t, exec i s = .next t ∧ t.mem = s.mem ∧ (t.thread g' h').run.ts = .running ∧
      (t.thread g' h').r.pc = s.pcAt g' (recCode tr.dw2) ∧ (t.thread g' h').r.getX 10 = BitVec.ofNat 64 tr.frame ∧
      (t.thread g' h').r.getX 11 = BitVec.ofNat 64 (recSw tr.dw2) ∧ (t.thread g' h').r.getX 1 = 0 ∧
      (t.thread g' h').r.weight = (if recLv tr.dw2 then shareOf (recLexp tr.dw2) else 0) ∧ (t.cluster c).queue q = [] ∧
      ∀ g h, ¬(g = g' ∧ h = h') → (t.thread g h).r = (s.thread g h).r
    let only : Prop := k.queue q = [x] ∧ q < 16 ∧ (∀ j, j ≠ q → k.queue j = []) ∧ x.spill = none ∧ tr.resume = none
    let entry (i : Instr) (e : Nat) : Prop := (i, e) ∈ [(.dispatchDecision c, 0), (.preemptDecision c, 1), (.faultDecision c, 2),
      (.timerDecision c, 3)]
    (only → k.prepared = none → k.prepAck = false → s.nextEvent c 0 = some ev → k.recipeDis = true → s2.choose c tr false = some (g', h') →
      starts (.dispatchDecision c)) ∧
    (only → s.serves c ⟨0, 0, 0, 0, 0⟩ = true → tr.enqueued + k.ageLimit * 1024 ≤ s.now → s.choose c tr true = some (g', h') →
      starts (.ageOverride c)) ∧
    (∀ i e, entry i e → k.prepared = none → k.prepAck = false → s.nextEvent c e = some ev → k.recipeDis = false → ev.kind ≠ 5 →
      (decideBy s2 c ev = .ended d → d.picks = [] → d.evicts = [] → d.charges = [] → (∃ n v, d.scratch = [(n, v)] ∨ d.scratch = []) →
        ∃ t, exec i s = .next t ∧ Same s t ∧ (t.cluster c).events = k.events.erase ev ∧
          ∀ n v, d.scratch = [(n, v)] → (t.cluster c).scratch.look n 0 = v) ∧
      (decideBy s2 c ev = .ended d → d.picks = [⟨q, x, 0, g', h'⟩] → d.evicts = [] → d.charges = [] → d.scratch = [] → only →
        s2.choose c tr false = some (g', h') → starts i) ∧
      (∀ n u m tk b, decideBy s2 c ev = .ended d → d.picks = [] → d.evicts = [] → d.scratch = [] → d.charges = [(n, u)] → n < 384 →
        policyIdle s2 (tileIn c (n / 2)) (n % 2) = false → s2.taskAt (tileIn c (n / 2)) (n % 2) = some tk →
        budgetIndex k (recRegion tk.tr.dw2) = some m → k.budget.look m 0 = b → ∃ t, exec i s = .next t ∧ Same s t ∧
          (t.cluster c).budget.look m 0 = b - min (b % 2 ^ 32) u) ∧
      (∀ n, decideBy s2 c ev = .ended d → d.picks = [] → d.charges = [] → d.scratch = [] → d.evicts = [n] → n < 384 → n % 2 = 1 →
        let g := tileIn c (n / 2)
        let r := (s.thread g 1).run
        r.ts = .running → r.gather.role = .solo → r.npd = 0 → r.due = [] → r.stop = {} → r.dbg.halted = false → s.midway g 1 = false →
        s.freeSlots (clusterOf g) ≠ [] →
        ∃ t, exec i s = .next t ∧ Same s t ∧ (t.thread g 1).run.ts = .stopped ∧ (t.thread g 1).run.stop.evict = true) ∧
      (decideBy s2 c ev = .passed → exec i s = .next s2) ∧
      (decideBy s2 c ev = .overrun → exec i s = .next s)) ∧
    (k.prepared = none → k.prepAck = false → s.nextEvent c 2 = some ev → k.recipeDis = false → ev.kind = 5 → decideBy s2 c ev = .ended d → d.picks = [] →
      d.evicts = [] → d.charges = [] → d.scratch = [] → d.act = some 1 → causeClass ev.cause = .tile →
      let g := tileIn c (ev.thread / 2)
      ev.thread % 2 = 1 → (s.thread g 1).run.ts = .stopped →
      ∃ t, exec (.faultDecision c) s = .next t ∧ t.mem = s.mem ∧ (t.thread g 1).run.ts = .idle ∧ (t.thread g 1).r.weight = 0 ∧
        (0x49, s.nameOf g) ∈ (t.island (islandOf g)).notices) ∧
    (∀ e, k.prepared = none → k.prepAck = false → firstEvent k.events = some e → s.serves c e = true → k.recipeDis = false →
      decideBy (s.dropEvent c e) c e = .overrun → 3 ≤ e.kind → e.kind ≠ 5 → k.overruns < 4294967295 →
      ∃ t, exec (.decisionOverrun c) s = .next t ∧ Same s t ∧ (t.cluster c).overruns = k.overruns + 1 ∧
        (t.cluster c).events = k.events.erase e)

/-- 08 R200, R201, R215 to R218: the events of time, and the commit of a recipe. A commit that finds none pending prepares every cluster of
the region for one switch time; a cluster answers valid only to a valid image in its inactive slot; with every answer valid 512 ns before
that time all clusters switch at it, else none does. -/
def Obligations.RecipesAreCommitted : Prop :=
  ∀ (s : State) (c region value slot T : Nat),
    let k := s.cluster c
    let q := s.region region
    let own := s.region (c / 3072 * 256 + k.region)
    let g := s.focus.tile
    (k.timerCfg ≠ 0 → k.timerLast < s.now / 2 ^ k.timerCfg * 2 ^ k.timerCfg → ∃ t, exec (.timerEvent c) s = .next t ∧ Same s t ∧
      (∃ e ∈ (t.cluster c).events, e.kind = 6) ∧ (t.cluster c).timerLast = s.now / 2 ^ k.timerCfg * 2 ^ k.timerCfg) ∧
    (∀ tk, s.me.run.task = some tk → (s.cluster (clusterOf g)).taskSlice ≠ 0 → s.focus.thread ≤ 1 →
      tk.slices < (s.now - tk.begun) / (s.cluster (clusterOf g)).taskSlice → s.me.run.ts.atRest = false →
      ∃ t, exec .sliceEndEvent s = .next t ∧ Same s t ∧
        ∃ e ∈ (t.cluster (clusterOf g)).events, e.kind = 3 ∧ e.thread = threadIndex g s.focus.thread) ∧
    (q.commitPend = false → value % 256 = region % 256 → ∃ t, exec (.recipeCommit region value) s = .next t ∧ Same s t ∧
      (t.region region).commitPend = true ∧ (t.region region).commitSlot = value / 256 % 2 ∧ (t.region region).commitT % 1024 = 0 ∧
      s.now + 4096 ≤ (t.region region).commitT ∧ ∀ c ∈ q.clusters, (t.cluster c).prepared = none ∧ (t.cluster c).prepAck = false) ∧
    (q.commitPend = true → exec (.recipeCommit region value) s = .next s) ∧
    (value % 256 ≠ region % 256 → exec (.recipeCommit region value) s = .next s) ∧
    (own.commitPend = true → k.prepAck = false → own.clusters.contains c = true → s.now < own.commitT →
      let ok := k.recipeAct % 2 ≠ own.commitSlot ∧ imageValid (k.imgWord own.commitSlot) (k.entry own.commitSlot) = true
      (ok → ∃ t, exec (.recipePrepare c) s = .next t ∧ Same s t ∧ (t.cluster c).prepAck = true ∧
        (t.cluster c).prepared = some (own.commitSlot, own.commitT)) ∧
      (¬ok → ∃ t, exec (.recipePrepare c) s = .next t ∧ Same s t ∧ (t.cluster c).prepAck = true ∧ (t.cluster c).recipeFail = true ∧
        (t.cluster c).prepared = k.prepared)) ∧
    (q.commitPend = true → s.now + 512 ≤ q.commitT →
      ((∀ c ∈ q.clusters, (s.cluster c).prepAck = true ∧ (s.cluster c).prepared ≠ none) →
        ∃ t, exec (.recipeGo region) s = .next t ∧ Same s t ∧ ∀ c ∈ q.clusters, (t.cluster c).goAhead = true) ∧
      ((∃ c ∈ q.clusters, (s.cluster c).prepared = none) → exec (.recipeGo region) s = .next s)) ∧
    (k.prepared = some (slot, T) → T ≤ s.now → ∃ t, exec (.recipeSwitch c) s = .next t ∧ Same s t ∧ (t.cluster c).prepared = none ∧
      (t.cluster c).recipeAct = if k.goAhead then slot else k.recipeAct) ∧
    (∃ t, exec (.recipeCtlClear c value) s = .next t ∧ Same s t ∧
      ((t.cluster c).recipeFail = true ↔ k.recipeFail = true ∧ value / 8 % 2 = 0) ∧
      ((t.cluster c).qstatOvf = true ↔ k.qstatOvf = true ∧ value / 4 % 2 = 0))

/-! Faults and repair -/

/-- 01 R27, 16 R339 to R355: the island's resolution and the failures of hardware. A stop holds the state of its thread, a resume gives it
back, a termination ends its task; re-arming frees the latch; a scrubbed granule is poisoned and reported; a silent tile and one whose
router fails are dead; a repair gives the dead coordinate a successor with the next generation, and a tile reset leaves its registers and
scratchpad zero. -/
def Obligations.FaultsAreResolved : Prop :=
  ∀ (s : State) (granule : Nat) (readable : Bool),
    let g := s.focus.tile
    let h := s.focus.thread
    let noSpill : Prop := ∀ q, ∀ x ∈ (s.cluster (clusterOf g)).queue q, x.spill = none
    (h ≤ 1 → s.me.run.ts = .running → s.me.run.npd = 0 → s.midway g h = false → s.me.run.dbg.halted = false → s.me.run.clear →
      (h = 0 → s.me.run.stop.leader = true → s.owesWords g = false) →
      ∃ t, exec .islandStop s = .next t ∧ Same s t ∧ t.me.run.ts = .stopped ∧ t.me.run.heldTs = .running) ∧
    (s.me.run.ts = .stopped → s.me.run.heldTs = .running → (s.myTile.c.reps.look h {}).v = false → s.me.run.dbg.halted = false →
      { s.me.run.stop with island := false, fault := false, leader := false } = {} → s.myTile.c.dead = false → s.myTile.c.hole = false →
      ∃ t, exec .islandResume s = .next t ∧ Same s t ∧ t.me.run.ts = .running) ∧
    ((s.myTile.c.reps.look h {}).v = true → ∃ t, exec .islandResume s = .next t ∧ t.me = s.me) ∧
    (h = 1 → s.me.run.ts = .stopped → ∃ t, exec .islandTerminateTask s = .next t ∧ Wrote s t g h { s.me.r with weight := 0 } ∧
      t.me.run.ts = .idle ∧ t.me.run.task = none) ∧
    (∃ t, exec .faultReportRearm s = .next t ∧ (t.myTile.c.reps.look h {}).v = false ∧ Wrote s t g h s.me.r) ∧
    (granule < 16384 → isTileHome g = true → ∃ t, exec (.scrubUncorrectable granule) s = .next t ∧ Same s t ∧
      poisonedAt t g (8 * granule) 8 = true ∧ t.reported g 0x21 0) ∧
    (noSpill → ∃ t, exec .tileQuarantine s = .next t ∧ t.mem = s.mem ∧ (t.tile g).c.dead = true ∧ (t.tile g).c.quarantined = true ∧
      (t.tile g).rt.closed = true ∧ (0x64, s.nameOf g) ∈ (t.island (islandOf g)).notices) ∧
    (noSpill → ∃ t, exec .tileSilent s = .next t ∧ t.mem = s.mem ∧ (t.tile g).c.dead = true ∧ t.reported g 0x24 0) ∧
    (noSpill → ∃ t, exec .routerParityError s = .next t ∧ t.mem = s.mem ∧ (t.tile g).c.dead = true ∧ (t.tile g).rt.stoppedRouter = true ∧
      (∀ p, p < 4 → t.linkIsDown g p = true) ∧ t.reported g 0x22 0) ∧
    ((s.tile g).c.dead = true → (s.tile g).c.hole = false → (s.cluster (clusterOf g)).spareRow = none → s.movedTiles g = [g] →
      readable = true → (s.cluster (clusterOf g)).spillN = 0 → ∃ t, exec (.tileRepair readable) s = .next t ∧ t.mem = s.mem ∧
        (t.tile g).c.dead = false ∧ t.genOf g = (if s.genOf g = 255 then 1 else s.genOf g + 1) ∧
        (t.cluster (clusterOf g)).spareRow = some (yOf g % 12) ∧ (t.tile g).c.poison = (s.tile g).c.poison ∧
        ∀ h, (t.thread g h).r = {}) ∧
    ((s.tile g).c.dead = true → (s.tile g).c.hole = false → (s.cluster (clusterOf g)).spareRow ≠ none →
      ∃ t, exec (.tileRepair readable) s = .next t ∧ (t.tile g).c.hole = true) ∧
    ((s.tile g).c.dead = false → exec (.tileRepair readable) s = .next s) ∧
    (∃ t, exec .tileReset s = .next t ∧ (∀ h, (t.thread g h).r = {} ∧ (t.thread g h).run.ts = .idle) ∧ (t.tile g).r = {} ∧
      (∀ b, b < 131072 → t.mem.read (padKey g b) = 0) ∧ (∀ k, ¬(padKey g 0 ≤ k ∧ k < padKey g 0 + 131072) → t.mem.read k = s.mem.read k) ∧
      ∀ g', g' ≠ g → t.tile g' = s.tile g')

/-! Contexts -/

/-- 17 R356 to R370, 19 R406: a context's life. SAVE and the end of a slice make a RUNNING context drain, its threads outside sections
stopped; drained, it is SAVING, its scratchpads zero, its area headed by the magic number and the time, and no byte outside the
area changed; then it is UNLOADED. LOAD makes it LOADING, and once restored RUNNING with the grant its debt leaves (ended at once where its
virtual function was reset meanwhile, R377); TERMINATE and a program-VC message that left its clusters 100 µs ago end it, and drained it is
FREE, its scratchpads zero. No command is taken while one is in progress. Guest time may be raised
while it is not loaded. -/
def Obligations.ContextsRunInSlices : Prop :=
  ∀ (s : State) (r value : Nat),
    let q := s.region r
    let calm : Prop := ∀ g h, g ∈ s.regionTiles r → h ≤ 1 → (s.thread g h).run.clear
    let drains (i : Instr) (busy : Bool) : Prop := calm → ∃ t, exec i s = .next t ∧ Same s t ∧ (t.region r).ten = 4 ∧
      (t.region r).busy = busy ∧ ∀ g h, g ∈ s.regionTiles r → h ≤ 1 → (s.thread g h).run.ts = .running →
        (s.thread g h).run.npd = 0 → s.midway g h = false → (s.thread g h).run.gather.role = .solo →
        (s.thread g h).run.dbg.halted = false → (t.thread g h).run.ts = .stopped
    let mine (k : Nat) : Prop := isPadKey k = true ∧ q.clusters.contains (clusterOf (padOf k)) = true
    let clear (t : State) (k : Nat) : Prop := (mine k → t.mem.read k = 0) ∧ (¬mine k → t.mem.read k = s.mem.read k)
    let noSpill : Prop := ∀ c j, ∀ x ∈ (s.cluster c).queue j, x.spill = none
    let base := edgeKey (r / 256) q.ctxBase
    (q.ten = 3 → q.busy = false → drains (.tenCtlSave r) true) ∧
    (q.ten ≠ 3 ∨ q.busy = true → exec (.tenCtlSave r) s = .next s) ∧
    (q.ten = 3 → q.sliceLen ≠ 0 → q.sliceStart + q.grant ≤ s.now → drains (.sliceExpiry r) q.busy) ∧
    (s.now < q.sliceStart + q.grant → exec (.sliceExpiry r) s = .next s) ∧
    (q.ten = 4 → s.tilesDrained r = true → s.netDrained r = true → s.areaClaimed r = false → ∃ t, exec (.drainComplete r) s = .next t ∧ (t.region r).ten = 5 ∧
      (t.region r).saved ≠ none ∧ (t.region r).busy = q.busy ∧ t.mem.readNat base 4 = 0x58544347 ∧
      t.mem.readNat (base + 16) 8 = s.now % 2 ^ 64 ∧ ∀ k, ¬(base ≤ k ∧ k < base + areaSize q.clusters.length) → clear t k) ∧
    (q.ten = 4 → s.tilesDrained r = false → exec (.drainComplete r) s = .next s) ∧
    (q.ten = 5 → ∃ t, exec (.drainComplete r) s = .next t ∧ Same s t ∧ (t.region r).ten = 1 ∧ (t.region r).busy = false ∧
      (t.region r).saved = q.saved) ∧
    (q.ten = 6 → s.termDrained r = true → ∃ t, exec (.drainComplete r) s = .next t ∧ (t.region r).ten = 0 ∧ (t.region r).saved = none ∧
      (t.region r).busy = false ∧ (∀ k, mine k → t.mem.read k = 0) ∧ (noSpill → ∀ k, clear t k)) ∧
    (q.ten = 1 → q.busy = false → s.clustersFree r = true → (q.sliceLen = 0 ∨ q.debt < q.sliceLen) → q.saved ≠ none →
      ∃ t, exec (.tenCtlLoad r) s = .next t ∧ Same s t ∧ (t.region r).ten = 2 ∧ (t.region r).busy = true) ∧
    (q.ten = 2 → q.saved ≠ none → s.areaClaimed r = false → q.endAfterLoad = false → ∃ t, exec (.tenCtlLoad r) s = .next t ∧
      (t.region r).ten = 3 ∧ (t.region r).busy = false ∧ (t.region r).sliceStart = s.now ∧ (t.region r).grant = q.sliceLen - q.debt ∧
      (t.region r).debt = 0) ∧
    (q.ten = 2 → q.saved ≠ none → s.areaClaimed r = false → q.endAfterLoad = true → ∃ t, exec (.tenCtlLoad r) s = .next t ∧
      ((t.region r).ten = 0 ∨ (t.region r).ten = 6)) ∧
    (q.ten = 1 → q.busy = false → s.clustersFree r = true → q.saved ≠ none → q.sliceLen ≠ 0 → q.sliceLen ≤ q.debt →
      ∃ t, exec (.tenCtlLoad r) s = .next t ∧ Same s t ∧ (t.region r).debt = q.debt - q.sliceLen ∧ (t.region r).ten = 1) ∧
    (q.ten = 1 → q.busy = false → ∃ t, exec (.tenCtlTerminate r) s = .next t ∧ (t.region r).ten = 0 ∧ (t.region r).saved = none ∧
      ((s.wafer (r / 256)).life ≠ .secured → (∀ c j, (s.cluster c).queue j = []) → (∀ g h, (s.thread g h).run.task = none) → Same s t)) ∧
    (q.ten = 3 → q.busy = false → ∃ t, exec (.tenCtlTerminate r) s = .next t ∧
      ((t.region r).ten = 0 ∨ ((t.region r).ten = 6 ∧ (t.region r).busy = true))) ∧
    (q.busy = true → exec (.tenCtlTerminate r) s = .next s) ∧
    (q.ten = 4 → (∃ m ∈ s.flying, ofRegion r m = true ∧ m.vc ≤ 11 ∧ ∃ n, m.left = some n ∧ n + 100000 ≤ s.now) → calm →
      ∃ t, exec (.drainTimeout r) s = .next t ∧ Same s t ∧ (t.region r).ten = 6) ∧
    (q.ten ≤ 1 → ∃ t, exec (.gtSavedWrite r value) s = .next t ∧ Same s t ∧ (t.region r).gtSaved = max q.gtSaved (value % 2 ^ 64))

/-- 17 R366 to R368, 08 R207: sections and evictions. A section past the limit is counted once, one of four times the limit traps with
0x28; a read of NPOVR clears it; a task that has stopped for its eviction and drained leaves its thread IDLE, its registers in a swap slot,
the slot's bytes, its pc first, and no others written, its weight with them, and a resume record in its queue. -/
def Obligations.SectionsAndEvictions : Prop :=
  ∀ (s : State) (region : Nat) (tk : TaskInfo) (slot : Nat) (slots : List Nat),
    let g := s.focus.tile
    let h := s.focus.thread
    let r := s.regionOf g
    let c := clusterOf g
    let run := s.me.run
    let q := recQueue tk.tr.dw2
    (0 < run.npd → run.npOver = false → (s.region r).npLimit < run.secTime → (s.region r).npovr < 4294967295 →
      ∃ t, exec .npLimitOverrun s = .next t ∧ Same s t ∧ t.me.run.npOver = true ∧ (t.region r).npovr = (s.region r).npovr + 1) ∧
    (run.npOver = true → exec .npLimitOverrun s = .next s) ∧
    (0 < run.npd → 4 * (s.region r).npLimit ≤ run.secTime → run.ts = .running → h ≤ 1 → s.midway g h = false →
      ∃ t, exec .npWatchdog s = .next t ∧ Wrote s t g h s.me.r ∧ t.me.run.ts = .stopped ∧ t.reported g 0x28 0) ∧
    (run.secTime < 4 * (s.region r).npLimit → exec .npWatchdog s = .next s) ∧
    (∃ t, exec (.npovrRead region) s = .next t ∧ Same s t ∧ t.ioRead = (s.region region).npovr ∧ (t.region region).npovr = 0) ∧
    (h = 1 → run.task = some tk → run.stop.evict = true → s.evictReady g 1 = true → s.freeSlots c = slot :: slots →
      (∀ x ∈ (s.cluster c).queue q, x.spill = none) → ((s.cluster c).queue q).length < 256 →
      slot < 65536 → s.slotClaimed r c slot = false →
      ∃ t, exec .evictionSave s = .next t ∧ t.focus = s.focus ∧ t.now = s.now ∧ t.me.r = { s.me.r with weight := 0 } ∧
        (∀ g' h', ¬(g' = g ∧ h' = h) → (t.thread g' h').r = (s.thread g' h').r) ∧
        (∀ g', (t.tile g').r = (s.tile g').r) ∧ t.mem.readNat (s.swapKey r c slot) 8 = s.me.r.pc.toNat ∧
        (∀ k, ¬(s.swapKey r c slot ≤ k ∧ k < s.swapKey r c slot + 16384) → t.mem.read k = s.mem.read k) ∧ t.me.run.ts = .idle ∧
        (∃ w, (t.region r).swaps.find (c * 65536 + slot) = some w ∧ w.saved = s.me ∧ w.tile = g ∧ w.thread = 1) ∧
        ∃ x ∈ (t.cluster c).queue q, x.tr.resume = some (c * 65536 + slot) ∧ x.tr.frame = tk.tr.frame ∧ x.tr.dw1 = tk.tr.dw1)

/-! Vector instructions -/

/-- 05 R98 to R117, 03 R58, R66 to R69, 01 R9: an instruction of one tile's elements, its vector unit awake, completes: each active element
of its destination is its operation's result, each inactive one keeps its value, and `fxflags` gathers the flags of the active elements. No
other register and no byte of memory changes. -/
def Obligations.VectorOpsActOnActiveElements : Prop :=
  ∀ (s : State) (c : CV) (o : VU) (i : Instr) (b fd pg old : Nat) (sb : Bool) (f : Nat → Nat × Flags), s.focus.thread = 0 →
    s.warm s.focus.tile false = true → s.settled sb →
    let x (n k : Nat) := elem (s.vN n) (etBytes c.et) k
    let y (k : Nat) := elem (s.vN o.f1) (etBytes o.et) k
    let three (op : VOp) (k : Nat) : Nat × Flags := vOp op c.et (x c.fd k) (x c.f1 k) (x c.f2 k)
    let row3 (i : Instr) (f : Nat → Nat × Flags) := (i, etBytes c.et, c.fd, c.pg, s.vN c.fd, c.s, f)
    let row1 (i : Instr) (f : Nat → Nat × Flags) := (i, etBytes o.et, o.fd, o.pg, s.vN o.fd, o.s, f)
    let exact (v : Nat) : Nat × Flags := (v, Flags.none)
    (i, b, fd, pg, old, sb, f) ∈ [row3 (.vadd c) (three .add), row3 (.vsub c) (three .sub), row3 (.vmul c) (three .mul),
      row3 (.vfma c) (three .fma), row3 (.vmin c) (three .min), row3 (.vmax c) (three .max),
      (.vbit c, 1, c.fd, c.pg, s.vN c.fd, c.s, fun k => exact (vbitByte c.et (elem (s.vN c.f1) 1 k) (elem (s.vN c.f2) 1 k))),
      (.vshift c, (vshiftKind c.et).1, c.fd, c.pg, s.vN c.fd, c.s, fun k => exact (vshiftElem (vshiftKind c.et).2 (8 * (vshiftKind c.et).1)
        (elem (s.vN c.f1) (vshiftKind c.et).1 k) (elem (s.vN c.f2) (vshiftKind c.et).1 k))),
      (.vsel c, etBytes c.et, c.fd, c.pg, s.vN c.f2, c.s, fun k => exact (x c.f1 k)),
      row1 (.vneg o) (fun k => exact (vnegElem o.et (y k))), row1 (.vabs o) (fun k => exact (vabsElem o.et (y k))),
      row1 (.vmov o) (fun k => exact (y k)), row1 (.vrcp o) (fun k => vfnElem fvRcp o.et (y k)),
      row1 (.vrsqrt o) (fun k => vfnElem fvRsqrt o.et (y k)), row1 (.vexp2 o) (fun k => vfnElem fvExp2 o.et (y k)),
      row1 (.vlog2 o) (fun k => vfnElem fvLog2 o.et (y k)), row1 (.vtanh o) (fun k => vfnElem fvTanh o.et (y k)),
      row1 (.vsigm o) (fun k => vfnElem fvSigm o.et (y k)), row1 (.vsplatx o) (fun _ => exact (s.getXn o.f1)),
      row1 (.vsplatf o) (fun _ => convertTo (etFmt o.et) (fdecode fp32 (s.me.r.getF o.f1).toNat)),
      row1 (.viota o) (fun k => exact (s.me.run.gather.index * (64 / etBytes o.et) + k))] →
    ∃ t v, exec i s = .next t ∧
      Done s t ((s.me.r.raiseFx (flagsOf (64 / b) (s.pN pg) b (fun k => (f k).2))).after s.me.run.rep) (s.myTile.r.setV fd v) s.mem ∧
      ∀ k, k < 64 / b → elem v.toNat b k = if active (s.pN pg) b k then (f k).1 % 256 ^ b else elem old b k

/-- 05 R111, R119 to R121, R127, R129, 03 R60 to R62: compares and `pwhilelt` write the bits of active elements of a predicate, the predicate
logic its active bits; a conversion packs its results from element 0 and zeroes the rest, a stochastic one with one draw of the generator for
each active element in order; `vquery` gives the vector length of the gathering in bits. -/
def Obligations.VectorResultsOfOtherShapes : Prop :=
  ∀ (s : State) (c : CV) (o : VU) (sub : Nat), s.focus.thread = 0 → s.warm s.focus.tile false = true →
    let r := s.me.r
    let tr := s.myTile.r
    let rep := s.me.run.rep
    let pbits (i : Instr) (r' : Regs) (pd p : Nat) (b : Nat) (f : Nat → Bool) : Prop := ∃ t, ∃ w : Word64, exec i s = .next t ∧
      Done s t (r'.after rep) (tr.setP pd w) s.mem ∧
      ∀ j, j < 64 → w.getLsbD j = if active p b (j / b) then f (j / b) else (tr.getP pd).getLsbD j
    (s.settled c.s → let b := etBytes c.et
      let f (k : Nat) := vcmpElem c.et (c.fd / 8) (elem (s.vN c.f1) b k) (elem (s.vN c.f2) b k)
      pbits (.vcmp c) (r.raiseFx (flagsOf (64 / b) (s.pN c.pg) b (fun k => (f k).2))) (c.fd % 8) (s.pN c.pg) b (fun k => (f k).1)) ∧
    (s.settled o.s → let b := etBytes o.et
      pbits (.pwhilelt o) r (o.fd % 8) (s.pN o.pg) b (fun k => decide ((s.getX o.f1).toInt +
        ((s.me.run.gather.index * (64 / b) + k : Nat) : Int) < (s.getX (o.f1 + 1)).toInt))) ∧
    (s.settled o.s → let x := tr.getP (o.f1 % 8)
      let y := tr.getP (o.f1 / 8)
      pbits (.pand o) r (o.fd % 8) (s.pN o.pg) 1 (fun k => x.getLsbD k && y.getLsbD k) ∧
      pbits (.por o) r (o.fd % 8) (s.pN o.pg) 1 (fun k => x.getLsbD k || y.getLsbD k) ∧
      pbits (.pxor o) r (o.fd % 8) (s.pN o.pg) 1 (fun k => x.getLsbD k != y.getLsbD k) ∧
      pbits (.pnot o) r (o.fd % 8) (s.pN o.pg) 1 (fun k => !x.getLsbD k)) ∧
    (s.settled o.s → let bs := etBytes o.et
      let w := (vcvtDest sub).bits
      let n := vcvtCount (64 / bs) w
      let act := (List.range n).filter (active (s.pN o.pg) bs)
      let packed (v : VWord) (f : Nat → Nat) : Prop := v.toNat < 2 ^ (w * n) ∧ ∀ k, k < n → v.toNat / 2 ^ (w * k) % 2 ^ w =
        if active (s.pN o.pg) bs k then f k % 2 ^ w else s.vN o.fd / 2 ^ (w * k) % 2 ^ w
      (let f (k : Nat) := vcvtElem o.et (vcvtDest sub) (elem (s.vN o.f1) bs k)
       ∃ t v, exec (.vcvt sub o) s = .next t ∧ packed v (fun k => (f k).1) ∧
         Done s t ((r.raiseFx (flagsOf n (s.pN o.pg) bs (fun k => (f k).2))).after rep) (tr.setV o.fd v) s.mem) ∧
      (let d := draws act.length r.s0 r.s1
       let f (k : Nat) := vcvtsrElem sub o.et (d.1.getD (act.takeWhile (fun j => decide (j < k))).length 0) (elem (s.vN o.f1) bs k)
       ∃ t v, exec (.vcvtsr sub o) s = .next t ∧ packed v (fun k => (f k).1) ∧
         Done s t ((({ r with s0 := d.2.1, s1 := d.2.2 } : Regs).raiseFx (flagsOf n (s.pN o.pg) bs (fun k => (f k).2))).after rep)
           (tr.setV o.fd v) s.mem)) ∧
    (s.settled o.s → ∃ t, exec (.vquery o) s = .next t ∧
      Done s t ((r.setX o.fd (BitVec.ofNat 64 (512 * s.me.run.gather.size))).after rep) tr s.mem)

/-- 05 R99, R114, R116, R118, R128, 03 R70: the instructions across elements. Outside a gathering, `vextx` gives one element (sign-extended
where it is an integer, zero beyond the vector), `vperm` selects elements by index, a reduction leaves the pairwise tree's value in element
0, `pcount` counts a predicate's bits and `pfirst` keeps the first; in a gathering `pcount` counts those of every participant, in each. -/
def Obligations.VectorOpsAcrossElements : Prop :=
  ∀ (s : State) (o : VU), s.focus.thread = 0 → s.settled o.s →
    let g := s.focus.tile
    let r := s.me.r
    let tr := s.myTile.r
    let rep := s.me.run.rep
    let b := etBytes o.et
    let p := s.pN o.pg
    let old := s.vN o.fd
    let src (k : Nat) := elem (s.vN o.f1) b k
    (s.warm g false = true → s.me.run.gather = {} →
      (∃ t, exec (.vextx o) s = .next t ∧ Done s t ((r.setX o.fd (if 64 / b ≤ s.getXn o.f1 then 0
        else if o.et ≤ 3 then sext (8 * b) (src (s.getXn o.f1)) else BitVec.ofNat 64 (src (s.getXn o.f1)))).after rep) tr s.mem) ∧
      (∃ t v, exec (.vperm o) s = .next t ∧ Done s t (r.after rep) (tr.setV o.fd v) s.mem ∧ ∀ k, k < 64 / b → elem v.toNat b k =
        if active p b k then (if src k < 64 / b then elem old b (src k) else 0) else elem old b k) ∧
      (∀ i op, (i, op) ∈ [(Instr.vredsum o, RedOp.sum), (.vredmax o, .max), (.vredmin o, .min)] →
        ∃ t v, exec i s = .next t ∧ Done s t ((r.raiseFx (redTile op o.et p (s.vN o.f1)).2).after rep) (tr.setV o.fd v) s.mem ∧
          elem v.toNat b 0 = (redTile op o.et p (s.vN o.f1)).1 % 256 ^ b ∧ ∀ k, 1 ≤ k → k < 64 / b → elem v.toNat b k = elem old b k) ∧
      (∃ t, exec (.pcount o) s = .next t ∧
        Done s t ((r.setX o.fd (BitVec.ofNat 64 (popN 64 (s.pN (o.f1 % 8))))).after rep) tr s.mem) ∧
      (let hits := (List.range 64).filter (fun j => (tr.getP o.pg).getLsbD j && (tr.getP (o.f1 % 8)).getLsbD j)
       ∃ t w, exec (.pfirst o) s = .next t ∧ Done s t (r.after rep) (tr.setP (o.fd % 8) w) s.mem ∧ ∀ j, j < 64 →
         w.getLsbD j = if (tr.getP o.pg).getLsbD j then decide (hits.head? = some j) else (tr.getP (o.fd % 8)).getLsbD j)) ∧
    (∀ ps, s.me.run.gather.role = .leader → s.participants (.pcount o) = some ps → o.fd ≠ 0 →
      (∀ m ∈ ps, s.warm m false = true ∧ (s.thread m 0).run.pend = []) →
      ∃ t, exec (.pcount o) s = .next t ∧ t.mem = s.mem ∧ ∀ m ∈ ps, (t.thread m 0).r.getX o.fd =
        BitVec.ofNat 64 ((ps.map (fun m => popN 64 ((s.tile m).r.getP (o.f1 % 8)).toNat)).foldl (· + ·) 0))

/-- 05 R122 to R126: vector memory instructions on the thread's own scratchpad. A load or gather fills the active elements from memory, a
store or scatter writes them in ascending order; an inactive element makes no access. One whose first failing active element fails the
first pass of checks traps with that element's address, with nothing done. One whose elements all lie elsewhere completes with one request for each
active element, to its home, outstanding together; a failed second pass traps, and an element without a translation entry asks for a walk. -/
def Obligations.VectorMemoryOnOwnScratchpad : Prop :=
  ∀ (s : State) (o : CV), s.focus.thread = 0 → s.warm s.focus.tile false = true →
    let g := s.focus.tile
    let b := etBytes o.et
    let n := 64 / b
    let p := s.pN o.pg
    let key (a : Nat) := padKey g (addrOff a)
    let reach (addr : Nat → Nat) (write : Bool) : Prop := ∀ k, k < n → active p b k = true →
      s.ownBytes (addr k) b ∧ s.ownFree (addrOff (addr k)) b write ∧ poisonedAt s g (addrOff (addr k)) b = false
    let loads (i : Instr) (addr : Nat → Nat) : Prop := reach addr false → s.me.held = false → s.settled o.s →
      ∃ t v, exec i s = .next t ∧ Done s t (s.me.r.after s.me.run.rep) (s.myTile.r.setV o.fd v) s.mem ∧ ∀ k, k < n →
        elem v.toNat b k = if active p b k then s.mem.readNat (key (addr k)) b else elem (s.vN o.fd) b k
    let stores (i : Instr) (addr : Nat → Nat) : Prop := reach addr true → s.me.held = false → s.settled o.s →
      ∃ t m, exec i s = .next t ∧ Done s t (s.me.r.after s.me.run.rep) s.myTile.r m ∧
        (∀ k, k < n → active p b k = true → (∀ j, k < j → j < n → active p b j = true →
          addrOff (addr k) + b ≤ addrOff (addr j) ∨ addrOff (addr j) + b ≤ addrOff (addr k)) →
          m.readNat (key (addr k)) b = elem (s.vN o.fd) b k) ∧
        (∀ a, (∀ k, k < n → active p b k = true → ¬(key (addr k) ≤ a ∧ a < key (addr k) + b)) → m.read a = s.mem.read a)
    let fails (i : Instr) (kind : WinKind) (addr : Nat → Nat) : Prop := s.canTrap → s.me.held = false →
      ∀ c a, firstPass s b kind (activeAddrs o s addr) = some (c, a) → ∃ t, exec i s = .next t ∧
        (∃ k, k < n ∧ active p b k = true ∧ addr k = a) ∧ t.me.run.ts = .stopped ∧ t.mem = s.mem ∧ t.reported g c 0
    let far (i : Instr) (kind : WinKind) (addr : Nat → Nat) (dst : OutDst) : Prop := s.me.held = false →
      (∀ l, vCheck s b kind (activeAddrs o s addr) = .ok l → l ≠ [] → (∀ e ∈ l, e.2.2.home ≠ g) → s.roomToIssue g 0 = true → s.settled o.s →
        ∃ t, exec i s = .next t ∧ Done s t (s.me.r.after s.me.run.rep) s.myTile.r s.mem ∧ (s.undisturbed → ∃ x ∈ t.me.run.outs,
          x.id = s.myTile.e.nextId ∧ x.dst = dst ∧ x.parts.map (fun q => q.home) = l.map (fun e => e.2.2.home))) ∧
      (∀ c sub a, vCheck s b kind (activeAddrs o s addr) = .trap c sub a → s.canTrap → ∃ t, exec i s = .next t ∧
        t.me.run.ts = .stopped ∧ t.mem = s.mem ∧ t.reported g c sub) ∧
      (∀ a, vCheck s b kind (activeAddrs o s addr) = .walk a → s.undisturbed → ∃ t, exec i s = .next t ∧ Same s t ∧
        ⟨0, 0, a, kind.acc, b⟩ ∈ t.myTile.e.walks)
    far (.vld o) .vload (unitAddr o s) (.v o.fd 0) ∧ far (.vgath o) .vload (offsetAddr o s) (.v o.fd 0) ∧
    far (.vst o) .vstore (unitAddr o s) .nowhere ∧ far (.vscat o) .vstore (offsetAddr o s) .nowhere ∧
    loads (.vld o) (unitAddr o s) ∧ loads (.vgath o) (offsetAddr o s) ∧ stores (.vst o) (unitAddr o s) ∧ stores (.vscat o) (offsetAddr o s) ∧
    fails (.vld o) .vload (unitAddr o s) ∧ fails (.vgath o) .vload (offsetAddr o s) ∧ fails (.vst o) .vstore (unitAddr o s) ∧
    fails (.vscat o) .vstore (offsetAddr o s)

/-! The matrix unit -/

/-- 06 R130 to R133, R135, R140, R141, R143, R144: a matrix-unit instruction whose operand rows are aligned and lie in its own scratchpad,
with both units awake and room in the queue, captures its operands in an entry at the queue's end and completes. A full queue holds it
without effect. A failed check traps with the cause and address of the first one, and no entry. `macc.row` leaves a pending write of its
v register; `mprog` reads the count and `mprogr`.
06 R139: in a gathering, a product or convolution with G = 1 is one step of all attached members. When each waits in the `gsync` that it
implies, its earlier results are there, its checks pass, its units are awake and its queue has room, every member's queue receives an entry
of the joint array with its own B operand, and every member completes the instruction. -/
def Obligations.MatrixEntriesQueue : Prop :=
  (∀ (s : State) (o : MM) (m : CR), s.focus.thread = 0 → s.isGang o = false →
    let g := s.focus.tile
    let base := s.prefixOf g
    let r := s.me.r
    let inside (a n : Nat) : Prop := base ≤ a ∧ a + n ≤ base + 131072
    let rows (a st n len : Nat) : Prop := st % 4 = 0 ∧ ∀ k, k < n → (a + k * st) % 2 ^ 64 % 4 = 0 ∧ inside ((a + k * st) % 2 ^ 64) len
    let rowsB (f : MFmt) (k : Nat) : Prop :=
      if o.t then rows (s.getXn o.rs2) r.mstrideB 16 (rowBytes f k) else rows (s.getXn o.rs2) r.mstrideB k (rowBytes f 16)
    let awake : Prop := s.warm g false = true ∧ s.warm g true = true
    let entersWith (i : Instr) (p : MatEntry → State → Prop) : Prop := ∃ t e, exec i s = .next t ∧
      Done s t (r.after s.me.run.rep) s.myTile.r s.mem ∧ t.myTile.e.mq = s.myTile.e.mq ++ [e] ∧ e.instr = i ∧
      e.serial = s.myTile.e.mqSerial ∧ e.pc = r.pc ∧ e.gang = [] ∧ p e t
    let two (e : MatEntry) : Prop := e.x1 = s.getX o.rs1 ∧ e.x2 = s.getX o.rs2
    let waits (i : Instr) : Prop := ∃ t, exec i s = .next t ∧ Same s t ∧ t.myTile.e.mq = s.myTile.e.mq
    let free (cls : Nat) (sb : Bool) : Prop := awake ∧ s.mqReady cls g = true ∧ s.settled sb
    let full : Prop := awake ∧ 4 ≤ s.myTile.e.mq.length ∧ s.me.run.clear
    let refuses (i : Instr) (c a : Nat) : Prop := ∃ t, exec i s = .next t ∧ Trapped s t c 0 a ∧ t.myTile.e.mq = s.myTile.e.mq
    (∀ i c4, (i, c4) ∈ [(Instr.mmaE4e4 o, 0), (.mmaE4e5 o, 1), (.mmaE5e4 o, 2), (.mmaE5e5 o, 3), (.mmaE4f6 o, 4), (.mmaE4f4 o, 5),
        (.mmaF4f4 o, 6), (.mmaBf o, 7), (.mmaI8 o, 8)] →
      let sh := mshape c4
      (rows (s.getXn o.rs1) r.mstrideA 16 (rowBytes sh.fa sh.k) → rowsB sh.fb sh.k →
        (free 2 o.s → entersWith i (fun e _ => two e ∧ e.a = s.getXn o.rs1 % 131072 ∧ e.sa = r.mstrideA ∧ e.b = s.getXn o.rs2 % 131072 ∧
          e.sb = r.mstrideB ∧ (sh.scaled = true → e.scaleA = s.getV o.fs ∧ e.scaleB = (r.getF o.fs).toNat))) ∧
        (full → waits i)) ∧
      (s.canTrap → ∀ c a, productCheck c4 o true s = some (c, a) → refuses i c a)) ∧
    (let a := s.getXn o.rs1
     let rb := recordAt o s
     let q := convRec rb
     (a % 8 = 0 → inside a 64 → (∀ k, k < 8 → poisonedAt s g (a % 131072 + 8 * k) 8 = false) →
       (q.ok = true → rowsB (mshape q.fmt).fb q.rows → inside (base + q.inb) q.box →
         (recordWaits o s = false → free 2 o.s → entersWith (.mconv o) (fun e _ => two e ∧ e.recBytes = rb ∧ e.b = s.getXn o.rs2 % 131072 ∧ e.sb = r.mstrideB ∧
           e.scaleA = s.getV o.fs ∧ e.scaleB = (r.getF o.fs).toNat)) ∧
         (full → waits (.mconv o))) ∧
       (q.ok = false → recordWaits o s = false → s.canTrap → refuses (.mconv o) 0x02 a)) ∧
     (a % 8 ≠ 0 → s.canTrap → refuses (.mconv o) 0x04 a) ∧
     (a % 8 = 0 → ¬inside a 64 → s.canTrap → refuses (.mconv o) 0x05 a)) ∧
    (let a := s.getXn m.rs1
     (free 0 m.s → entersWith (.maccZero m) (fun _ _ => True)) ∧ (full → waits (.maccZero m)) ∧
     (∀ i n mis out cls, (i, n, mis, out, cls) ∈ [(Instr.maccSt m, 1024, 0x06, 0x07, 1), (.maccStp m, 2048, 0x06, 0x07, 1),
         (.maccLdp m, 2048, 0x04, 0x05, 2)] →
       (a % 64 = 0 → inside a n → (free cls m.s → entersWith i (fun e _ => e.a = a % 131072)) ∧ (full → waits i)) ∧
       (a % 64 ≠ 0 → s.canTrap → refuses i mis a) ∧
       (a % 64 = 0 → ¬inside a n → s.canTrap →
         refuses i out (if base ≤ a ∧ a < base + 131072 then base + 131072 else a))) ∧
     (s.me.run.livePend.length < 8 → m.s = false → s.me.run.rep = none → free 0 false →
       entersWith (.maccRow m) (fun e t => e.a = a % 64 ∧
         t.me.run.pend = s.me.run.pend ++ [⟨true, m.rd, 0, 0, .row e.serial, false⟩]))) ∧
    (s.settled m.s → ∃ t, exec (.mprog m) s = .next t ∧ Done s t ((r.setX m.rd (BitVec.ofNat 64
      (s.myTile.e.mq.length * 256 + mprogWord s.myTile.e))).after s.me.run.rep) s.myTile.r s.mem)) ∧
  (∀ (s : State) (o : MM) (ps : List Nat), s.focus.thread = 0 → s.isGang o = true → s.me.run.gather.role = .leader →
    let g := s.focus.tile
    ps = g :: s.attachedOf g → s.gangReady g ps = true →
    (∀ m ∈ ps, s.warm m false = true ∧ s.warm m true = true ∧ s.mqReady 2 m = true ∧ (s.thread m 0).run.pend = []) →
    let enters (i : Instr) (p : MatEntry → Prop) : Prop := ∃ t, exec i s = .next t ∧ t.mem = s.mem ∧
      (∀ m ∈ ps, ∃ e, (t.tile m).e.mq = (s.tile m).e.mq ++ [e] ∧ e.instr = i ∧ e.gang = ps ∧ p e ∧
        e.b = ((s.thread m 0).r.getX o.rs2).toNat % 131072 ∧ e.sb = (s.thread m 0).r.mstrideB ∧
        (t.thread m 0).r = (s.thread m 0).r.after (s.thread m 0).run.rep ∧ (t.tile m).r = (s.tile m).r) ∧
      ∀ m h, ¬(m ∈ ps ∧ h = 0) → (t.thread m h).r = (s.thread m h).r
    (∀ i c4, (i, c4) ∈ [(Instr.mmaE4e4 o, 0), (.mmaE4e5 o, 1), (.mmaE5e4 o, 2), (.mmaE5e5 o, 3), (.mmaE4f6 o, 4), (.mmaE4f4 o, 5),
        (.mmaF4f4 o, 6), (.mmaBf o, 7), (.mmaI8 o, 8)] →
      (∀ m ∈ ps, productCheck c4 o (m == g) (s.lookAt m 0) = none) → enters i (fun _ => True)) ∧
    (s.me.run.gather.leader = g → recordWaits o s = false → (∀ m ∈ ps, convCheck o (m == g) (recordAt o s) (s.lookAt m 0) = none) →
      enters (.mconv o) (fun e => e.recBytes = recordAt o s)))

/-- 06 R136, R142, R143, R146, R147, 03 R64 to R67: the unit runs the entry at the head of its queue. A transfer happens whole; a product
starts with ROWS 0 and commits one row of its accumulator at a time: element (i, j) takes the update of its pair by row i of A, column j of
B and the scales, and the flags gather; after the last row the entry is done. No other accumulator changes. While a claim covers bytes that
it reads or writes, nothing happens (13 R291). A parity
error stops t0 with the report 0x20, a poisoned granule among the bytes read with 0x21 (16 R351), and nothing of the row or transfer is done.
06 R139: an entry of the joint array, at the head of the queue of every member, starts on all of them together, and a row of it commits on all
of them together, each with the leader's row of A and scale and its own columns of B. -/
def Obligations.MatrixUnitRuns : Prop :=
  (∀ (s : State) (e : MatEntry) (queue : List MatEntry), s.focus.thread = 0 → s.myTile.e.mq = e :: queue → s.me.run.ts ≠ .stopped →
    s.me.run.due = [] → e.gang = [] → isTileHome s.focus.tile = true →
    let g := s.focus.tile
    let r := s.me.r
    let tr := s.myTile.r
    let pair (c i j : Nat) := tr.getAcc c i j
    let others (tr' : TileRegs) (p : Nat → Nat → Nat → Prop) : Prop := tr'.v = tr.v ∧ tr'.p = tr.p ∧ tr'.lhtbase = tr.lhtbase ∧
      ∀ c i j, i < 16 → j < 16 → ¬p c i j → tr'.getAcc c i j = pair c i j
    let runs (r' : Regs) (tr' : TileRegs) (m : Memory) : Prop := ∃ t, exec .matrixEntryStart s = .next t ∧ Done s t r' tr' m ∧
      t.myTile.e.mq = queue
    let stops (i : Instr) (cause sub : Nat) : Prop := s.me.run.ts = .running → s.midway g 0 = false → ∃ t, exec i s = .next t ∧ t.mem = s.mem ∧
      t.me.r = r ∧ (∀ g, (t.tile g).r = (s.tile g).r) ∧ t.me.run.ts = .stopped ∧ t.reported g cause sub
    let stored (m : Memory) (n : Nat) : Prop := ∀ a, ¬(padKey g e.a ≤ a ∧ a < padKey g e.a + n) → m.read a = s.mem.read a
    (s.myTile.e.mprogV = false → windowFirst s g e = false →
      (∀ sh q n, mParts e = some (sh, q, n) → ∃ t, exec .matrixEntryStart s = .next t ∧ Same s t ∧ t.myTile.e.mq = s.myTile.e.mq ∧
        t.myTile.e.mprogV = true ∧ t.myTile.e.mprogAcc = q.acc ∧ t.myTile.e.mprogRows = 0) ∧
      (mParts e = none → (spanClaimed s g (e.reads ++ e.writes) = true → exec .matrixEntryStart s = .next s) ∧
        (spanClaimed s g (e.reads ++ e.writes) = false → spanPoison s g e.reads ≠ none → stops .matrixEntryStart 0x21 0)) ∧
      (spanClaimed s g (e.reads ++ e.writes) = false → spanPoison s g e.reads = none → ∀ o : CR,
        (e.instr = .maccZero o → ∃ tr', runs r tr' s.mem ∧ others tr' (fun c _ _ => c = o.rd % 4) ∧
          ∀ i j, i < 16 → j < 16 → tr'.getAcc (o.rd % 4) i j = (0, 0)) ∧
        (e.instr = .maccSt o → e.a + 1024 ≤ 131072 → ∃ m, runs (r.raiseFx (stBytes tr (o.rd % 4)).2) tr m ∧ stored m 1024 ∧
          ∀ i j, i < 16 → j < 16 → m.readNat (padKey g (e.a + 64 * i + 4 * j)) 4 = (readPair (pair (o.rd % 4) i j)).1 % 2 ^ 32) ∧
        (e.instr = .maccStp o → e.a + 2048 ≤ 131072 → ∃ m, runs r tr m ∧ stored m 2048 ∧ ∀ i j, i < 16 → j < 16 →
          m.readNat (padKey g (e.a + 128 * i + 8 * j)) 4 = (pair (o.rd % 4) i j).1.toNat ∧
          m.readNat (padKey g (e.a + 128 * i + 8 * j + 4)) 4 = (pair (o.rd % 4) i j).2.toNat) ∧
        (e.instr = .maccLdp o → ∃ tr', runs r tr' s.mem ∧ others tr' (fun c _ _ => c = o.rd % 4) ∧ ∀ i j, i < 16 → j < 16 →
          tr'.getAcc (o.rd % 4) i j = (BitVec.ofNat 32 (s.mem.readNat (padKey g (e.a + 128 * i + 8 * j)) 4),
            BitVec.ofNat 32 (s.mem.readNat (padKey g (e.a + 128 * i + 8 * j + 4)) 4))) ∧
        (e.instr = .maccRow o →
          let col (j : Nat) := readPair (pair (e.a / 16) (e.a % 16) j)
          runs (r.raiseFx ((List.range 16).foldl (fun f j => f.or (col j).2) Flags.none)) tr s.mem ∧
          ∀ t, exec .matrixEntryStart s = .next t → ∀ p ∈ s.me.run.pend, p.need = .row e.serial →
            { p with value := ((List.range 16).map (fun j => (col j).1 * 2 ^ (32 * j))).sum, need := .done } ∈ t.me.run.pend))) ∧
    (∀ sh q n, mParts e = some (sh, q, n) → s.myTile.e.mprogV = true →
      let i := s.myTile.e.mprogRows
      let next (t : State) : Prop := (i ≠ 15 → t.myTile.e.mq = s.myTile.e.mq ∧ t.myTile.e.mprogRows = i + 1) ∧
        (i = 15 → t.myTile.e.mq = queue ∧ t.myTile.e.mprogV = false)
      (i < 16 → spanClaimed s g (rowReads e true i) = false → spanPoison s g (rowReads e true i) = none →
        (aRow s g e i = none → ∃ t, exec (.matrixRowCommit false) s = .next t ∧ Done s t r tr s.mem ∧ next t) ∧
        (∀ as, aRow s g e i = some as →
          let u (j : Nat) := elementUpdate sh (e.scaleA.toNat / 2 ^ (32 * i) % 2 ^ 32) e.scaleB (if q.z then 0 else (pair q.acc i j).1.toNat)
            (if q.z then 0 else (pair q.acc i j).2.toNat) as (bCol s g e sh q.t n j)
          ∃ t tr', exec (.matrixRowCommit false) s = .next t ∧
            Done s t (r.raiseFx ((List.range 16).foldl (fun f j => f.or (u j).2) Flags.none)) tr' s.mem ∧ next t ∧
            others tr' (fun c i' _ => c = q.acc ∧ i' = i) ∧
            ∀ j, j < 16 → tr'.getAcc q.acc i j = (BitVec.ofNat 32 (u j).1.1, BitVec.ofNat 32 (u j).1.2))) ∧
      (spanClaimed s g (rowReads e true i) = true → exec (.matrixRowCommit false) s = .next s) ∧
      (spanClaimed s g (rowReads e true i) = false → spanPoison s g (rowReads e true i) ≠ none → stops (.matrixRowCommit false) 0x21 0) ∧
      stops (.matrixRowCommit true) 0x20 q.acc)) ∧
  (∀ (s : State) (e : MatEntry) (ps : List Nat) (sh : MShape) (q : MM) (n : Nat), s.focus.thread = 0 → s.myTile.e.mq.head? = some e →
    e.gang = ps → ps.head? = some s.focus.tile → ps.Nodup → gangAtHead s e = true → mParts e = some (sh, q, n) →
    let g := s.focus.tile
    let i := s.myTile.e.mprogRows
    let entry (m : Nat) := (s.tile m).e.mq.headD e
    let spans (m : Nat) := rowReads (entry m) (m == g) i
    let pair (m j : Nat) := (s.tile m).r.getAcc q.acc i j
    let done (t : State) (m : Nat) : Prop :=
      (i ≠ 15 → (t.tile m).e.mq = (s.tile m).e.mq ∧ (t.tile m).e.mprogV = (s.tile m).e.mprogV ∧ (t.tile m).e.mprogRows = i + 1) ∧
      (i = 15 → (t.tile m).e.mq = (s.tile m).e.mq.drop 1 ∧ (t.tile m).e.mprogV = false)
    (s.myTile.e.mprogV = false → (∀ m ∈ ps, windowFirst s m (entry m) = false) → ∃ t, exec .matrixEntryStart s = .next t ∧ Same s t ∧
      ∀ m ∈ ps, (t.tile m).e.mq = (s.tile m).e.mq ∧ (t.tile m).e.mprogV = true ∧ (t.tile m).e.mprogAcc = q.acc ∧
        (t.tile m).e.mprogRows = 0) ∧
    (s.myTile.e.mprogV = true → i < 16 → (∀ m ∈ ps, spanClaimed s m (spans m) = false ∧ spanPoison s m (spans m) = none) →
      (aRow s g e i = none → ∃ t, exec (.matrixRowCommit false) s = .next t ∧ Same s t ∧ ∀ m ∈ ps, done t m) ∧
      (∀ as, aRow s g e i = some as →
        let u (m j : Nat) := elementUpdate sh (e.scaleA.toNat / 2 ^ (32 * i) % 2 ^ 32) e.scaleB (if q.z then 0 else (pair m j).1.toNat)
          (if q.z then 0 else (pair m j).2.toNat) as (bCol s m (entry m) sh q.t n j)
        ∃ t, exec (.matrixRowCommit false) s = .next t ∧ t.mem = s.mem ∧
          (∀ m ∈ ps, done t m ∧
            (t.thread m 0).r = (s.thread m 0).r.raiseFx ((List.range 16).foldl (fun f j => f.or (u m j).2) Flags.none) ∧
            (∀ j, j < 16 → (t.tile m).r.getAcc q.acc i j = (BitVec.ofNat 32 (u m j).1.1, BitVec.ofNat 32 (u m j).1.2)) ∧
            ∀ c i' j, i' < 16 → j < 16 → ¬(c = q.acc ∧ i' = i) → (t.tile m).r.getAcc c i' j = (s.tile m).r.getAcc c i' j) ∧
          (∀ m h, ¬(m ∈ ps ∧ h = 0) → (t.thread m h).r = (s.thread m h).r) ∧ ∀ m, m ∉ ps → (t.tile m).r = (s.tile m).r)))

/-! The copy engine and landing packets -/

/-- 15 R307, R309 to R311, R313, 10 R240: a request that passes its checks enters the FIFO of eight with the words, the strides and the
share of the thread's weight captured; `cqpush` waits for a slot, `cqtry` reports without waiting, and a request that fails a check
traps, with the value or byte address that fails. `cqctl.free` gives the free slots; `cqctl.wait` waits for the requests accepted
before it, also those that an eviction has saved (R321). -/
def Obligations.CopyRequestsEnterTheFifo : Prop :=
  ∀ (s : State) (o : CR), s.focus.thread ≤ 1 →
    let r := s.me.r
    let e := s.myTile.e
    let accepted (t : State) (share : Nat) : Prop := ∃ c, t.myTile.e.copies = e.copies ++ [c] ∧ c.serial = e.copySerial ∧
      c.thread = s.focus.thread ∧ (c.w0, c.w1, c.w2, c.w3) = cqWords o s ∧
      (c.s1, c.s2, c.d1, c.d2) = (r.csrcS1.toNat, r.csrcS2.toNat, r.cdstS1.toNat, r.cdstS2.toNat) ∧ c.share = share ∧ c.cur = 0 ∧ c.prog = 0
    let ordered : Prop := s.heldOrder s.focus.tile s.focus.thread clsW s.focus.tile = false
    let free : Prop := cqTrap o s = none ∧ e.copies.length < 8 ∧ ordered
    let half := 2 ^ (Nat.log2 r.weight - 1)
    let quick : Prop := s.me.run.livePend.length < 8 ∧ o.s = false ∧ s.me.run.rep = none ∧ s.me.run.clear
    let late (i : Instr) (r' : Regs) (v : Nat) (p : State → Prop) : Prop := ∃ t, exec i s = .next t ∧ Done s t (r'.after none) s.myTile.r s.mem ∧
      t.me.run.pend = s.me.run.pend ++ [⟨false, o.rd, v, 0, .done, false⟩] ∧ p t
    (free → s.settled o.s → r.qwV = false ∨ r.weight = 0 → ∃ t, exec (.cqpush o) s = .next t ∧
      Done s t (r.after s.me.run.rep) s.myTile.r s.mem ∧ accepted t 0) ∧
    (free → s.settled o.s → r.qwV = true → 2 ≤ r.weight → r.weight < 2 ^ 63 → ∃ t, exec (.cqpush o) s = .next t ∧
      Done s t (({ r with weight := r.weight - half } : Regs).after s.me.run.rep) s.myTile.r s.mem ∧ accepted t half) ∧
    (cqTrap o s = none → 8 ≤ e.copies.length → s.me.run.clear → ∃ t, exec (.cqpush o) s = .next t ∧ Same s t ∧ t.myTile.e.copies = e.copies) ∧
    (∀ c a, cqTrap o s = some (c, a) → s.canTrap → (∃ t, exec (.cqpush o) s = .next t ∧ Trapped s t c 0 a) ∧
      ∃ t, exec (.cqtry o) s = .next t ∧ Trapped s t c 0 a) ∧
    (free → quick → (r.qwV = false ∨ r.weight = 0 → late (.cqtry o) r 0 (fun t => accepted t 0)) ∧
      (r.qwV = true → 2 ≤ r.weight → r.weight < 2 ^ 63 →
        late (.cqtry o) ({ r with weight := r.weight - half } : Regs) 0 (fun t => accepted t half)) ∧
      (r.qwV = true → r.weight = 1 → late (.cqtry o) r 1 (fun t => t.myTile.e.copies = e.copies))) ∧
    (cqTrap o s = none → 8 ≤ e.copies.length → ordered → quick → late (.cqtry o) r 1 (fun t => t.myTile.e.copies = e.copies)) ∧
    (quick → late (.cqtryProbe o) r (if e.copies.length < 8 then 0 else 1) (fun t => t.myTile.e.copies = e.copies) ∧
      late (.cqctlFree o) r (8 - e.copies.length) (fun t => t.myTile.e.copies = e.copies)) ∧
    (let bound := if s.me.run.phase = 6 then s.me.run.phaseVal else e.copySerial
     let passed : Prop := (∀ c ∈ e.copies ++ s.savedCopies s.focus.tile, bound ≤ c.serial) ∧ ∀ u ∈ e.units, bound ≤ u.serial
     (passed → s.settled o.s → ∃ t, exec (.cqctlWait o) s = .next t ∧ Done s t (r.after s.me.run.rep) s.myTile.r s.mem) ∧
     (¬passed → s.me.run.clear → ∃ t, exec (.cqctlWait o) s = .next t ∧ Same s t ∧ t.me.run.phase = 6 ∧ t.me.run.phaseVal = bound))

/-- 15 R314 to R320: the engine's steps. The next unit of a request claims its destination lines and reads its source; a unit whose reads
are complete sends its bytes with their mask, or a packet, or, failed, an empty mask that only releases its claims. What the router does
not take waits at the tile in order. A miss drops the
request with the report 0x18. A request whose units are done sends its increment, or frees its slot where it names no counter; the
acknowledgement frees the slot. No register and no byte of memory changes here. -/
def Obligations.CopyEngineRuns : Prop :=
  ∀ (s : State), isTileHome s.focus.tile = true →
    let g := s.focus.tile
    let e := s.myTile.e
    let runs (i : Instr) (p : State → Prop) : Prop := ∃ t, exec i s = .next t ∧ Same s t ∧ p t
    let leaves (t : State) (home kind : Nat) (body : Payload) : Prop := t.sent g 13 home kind body ∨
      ∃ u ∈ t.myTile.e.unsent, u.msg.dstHome = home ∧ u.msg.srcHome = g ∧ u.msg.vc = 13 ∧ u.msg.kind = kind ∧ u.msg.body = body
    let dropped (t : State) (c : CopyEntry) : Prop := t.myTile.e.copies = e.copies.filter (fun x => x.serial != c.serial)
    (∀ u, e.units.find? (s.unitReady g) = some u → u.task = false → s.passes g u.dstName u.home →
      runs .copyUnitIssue (fun t =>
        (u.failed = false → u.hid = 0 → leaves t u.home 5 (.copyLine (u.addr / 64 * 64) ((2 ^ u.bytes - 1) * 2 ^ (u.addr % 64))
          (u.data * 256 ^ (u.addr % 64)) u.id)) ∧
        (u.failed = false → u.hid ≠ 0 → leaves t u.home 5 (.packet u.addr u.bytes u.data u.row u.id)) ∧
        (u.failed = true → leaves t u.home 5 (.copyLine (u.addr / 64 * 64) 0 0 u.id)) ∧ ∃ u' ∈ t.myTile.e.units, u'.id = u.id ∧ u'.sent = true)) ∧
    (e.units.find? (s.unitReady g) = none → ∀ c, e.copies.find? (fun c => (c.st == .accepted || c.st == .issuing) &&
        !s.copyHeld g c.thread) = some c → c.cur < cqCount c.w2 →
      let n := c.unitLen
      let reads := srcRuns c n
      let dst := if isWin8 c.w1 then [] else [(c.dst c.cur, c.es, AccKind.amo)]
      let needs := dst ++ reads.map (fun x => (x.2.1, x.2.2, AccKind.probe))
      (firstOpen s g c needs = none → runs .copyUnitIssue (fun t =>
        (∃ u, t.myTile.e.units = e.units ++ [u] ∧ u.id = e.nextId ∧ u.serial = c.serial ∧ u.bytes = n * c.es ∧ u.left = reads.length ∧
          u.sent = false ∧ u.task = isWin8 c.w1) ∧
        (∃ c' ∈ t.myTile.e.copies, c'.serial = c.serial ∧ c'.cur = c.cur + n ∧ c'.prog = c.prog + 1) ∧
        (∀ p k, isWin8 c.w1 = false → engineTarget s g c (c.dst c.cur) c.es .amo = .place p → k < (if cqHid c.w2 = 0 then 1 else 8) →
          s.passes g p.dst p.home → leaves t p.home 3 (.mem (engineReq .claim (p.addr / 64 * 64 + 64 * k) 64 0 e.nextId 0 false false))) ∧
        ∀ x ∈ reads, ∀ p, engineTarget s g c x.2.1 x.2.2 .probe = .place p → s.passes g p.dst p.home →
          leaves t p.home 3 (.mem (engineReq .fetch p.addr x.2.2 0 e.nextId x.1 (pathOf x.2.1 == 2) true)))) ∧
      (∀ a m k sub, firstOpen s g c needs = some (a, m, k, .miss sub) → s.midway g c.thread = false → ∃ t, exec .copyUnitIssue s = .next t ∧ t.mem = s.mem ∧
        (∀ g h, (t.thread g h).r = (s.thread g h).r) ∧ dropped t c ∧ t.reported g 0x18 sub)) ∧
    (∀ c rest, e.copies = c :: rest → c.st = .landing → cqCount c.w2 ≤ c.cur → (∀ u ∈ e.units, u.serial ≠ c.serial) →
      let name := cqName c.w3
      (name = 0 → runs .copyRequestComplete (fun t => dropped t c)) ∧
      (name ≠ 0 → runs .copyRequestComplete (fun t =>
        (∃ c' ∈ t.myTile.e.copies, c'.serial = c.serial ∧ c'.st = .increment ∧ c'.incId = e.nextId) ∧
        (s.passes g name (nameTile name) → leaves t (nameTile name) 3 (.mem (engineReq .increment (8 * cqOff c.w3) 8 (cqInc c.w3) e.nextId 0 false false)))))) ∧
    (∀ c m rest id lane v at_ poisoned, (s.home g).inbox = m :: rest → m.body = .resp id lane v poisoned at_ → s.increments g id = some c →
      runs .copyIncrementAck (fun t => dropped t c))

/-- 15 R327 to R334: the landing instructions on t2. `lld` and `lst` move eight bytes of the landing buffer; `lcrc` gives its CRC-32C;
`ldec` decodes it in place, or leaves it where the input is bad; `lcvt` converts its elements; `linfo` reads the packet; `lcommit`
stores the buffer's first CL bytes at the packet's slot and ends the handler; `ldrop` ends it without a store. An access outside
the buffer aborts the packet with its report.
15 R324, R325, R334, R336: a packet whose claims are held enters the queue of four; the entry of the handler table starts t2 at
its code with the slot, the length and the source in a0 to a2, or, invalid or in a termination (17 R370), aborts the packet with code
0x80; on a stopped tile (R335) no handler starts; a handler that has
executed 4,096 instructions ends with code 0x82; a clear of LAND_STAT and a read of LAND_CNT clear what they name. -/
def Obligations.LandingHandlers : Prop :=
  (∀ (s : State) (o : CR) (p : Packet), s.focus.thread = 2 → s.myTile.e.landNow = some p →
    let g := s.focus.tile
    let e := s.myTile.e
    let r := s.me.r
    let a := s.getXn o.rs1
    let b := s.getXn o.rs2
    let gives (i : Instr) (v buf cl : Nat) : Prop := s.settled o.s → ∃ t, exec i s = .next t ∧
      Done s t ((r.setX o.rd (BitVec.ofNat 64 v)).after s.me.run.rep) s.myTile.r s.mem ∧ t.myTile.e.landBuf = buf ∧ t.myTile.e.landCl = cl
    let keeps (i : Instr) (v : Nat) : Prop := gives i v e.landBuf e.landCl
    let ends (i : Instr) (m : Memory) (p : State → Prop) : Prop := ∃ t, exec i s = .next t ∧ Done s t r s.myTile.r m ∧
      t.myTile.e.landNow = none ∧ t.me.run.ts = .idle ∧ p t
    let aborts (i : Instr) (c addr : Nat) : Prop := s.midway g 2 = false → ∃ t, exec i s = .next t ∧ t.mem = s.mem ∧
      (∀ g h, (t.thread g h).r = (s.thread g h).r) ∧ t.myTile.e.landNow = none ∧ t.me.run.ts = .idle ∧
      ∃ x ∈ (t.island (s.ringIsland g 2)).ring, x.cause = c ∧ x.addr = addr
    (a % 8 = 0 → a < 512 → keeps (.lld o) (e.landBuf / 256 ^ a % 2 ^ 64) ∧
      (s.settled o.s → ∃ t, exec (.lst o) s = .next t ∧ Done s t (r.after s.me.run.rep) s.myTile.r s.mem ∧
        t.myTile.e.landCl = max e.landCl (a + 8) ∧ ∀ k, bufByte t.myTile.e.landBuf k =
          if a ≤ k ∧ k < a + 8 then b / 256 ^ (k - a) % 256 else bufByte e.landBuf k)) ∧
    (a % 8 ≠ 0 ∨ 512 ≤ a → aborts (.lld o) 0x05 a ∧ aborts (.lst o) 0x07 a) ∧
    (a + b ≤ 512 → keeps (.lcrc o) (crc32c e.landBuf a b)) ∧ (512 < a + b → aborts (.lcrc o) 0x05 a) ∧
    (let d := zeroRun e.landBuf e.landCl (min a 512) 513 ⟨0, 0, 0, 0⟩
     (d.code = 0 → gives (.ldec o) (landStatus false 0 d.used 0 d.len) d.out d.len) ∧
     (d.code ≠ 0 → keeps (.ldec o) (landStatus true d.code d.used 0 d.len))) ∧
    (let src := landFmt a
     let dst := landFmt b
     let n := e.landCl * 8 / src.bits
     let bad : Prop := 10 < a ∨ 10 < b ∨ a = b ∨ e.landCl * 8 % src.bits ≠ 0 ∨ (a = 5 ∧ n % 4 ≠ 0)
     let f (k : Nat) := convertFrom src dst (e.landBuf / 2 ^ (src.bits * k) % 2 ^ src.bits)
     (bad → keeps (.lcvt o) (landStatus true 1 0 0 0)) ∧
     (¬bad → 512 < packedBytes dst n → keeps (.lcvt o) (landStatus true 2 0 0 0)) ∧
     (¬bad → packedBytes dst n ≤ 512 → ∃ out, gives (.lcvt o) (landStatus false 0 e.landCl
       ((List.range n).foldl (fun x k => x.or (f k).2) Flags.none).toFxflags (packedBytes dst n)) out (packedBytes dst n) ∧
       out < 2 ^ (dst.bits * n) ∧ ∀ k, k < n → out / 2 ^ (dst.bits * k) % 2 ^ dst.bits = (f k).1 % 2 ^ dst.bits)) ∧
    (∀ v, (o.rs1, v) ∈ [(0, p.bytes), (1, e.landCl), (2, s.prefixOf g + p.addr), (3, p.src), (4, p.row), (5, p.region), (6, p.hid)] →
      keeps (.linfo o) v) ∧
    (6 < o.rs1 → aborts (.linfo o) 0x02 0) ∧
    (isTileHome g = true → p.addr + e.landCl ≤ 131072 → ∃ m, (∀ k, k < e.landCl → m.readNat (padKey g (p.addr + k)) 1 = bufByte e.landBuf k) ∧
      (∀ k, ¬(padKey g p.addr ≤ k ∧ k < padKey g p.addr + e.landCl) → m.read k = s.mem.read k) ∧
      ends (.lcommit o) m (fun t => t.myTile.e.landCommits = min (e.landCommits + 1) (2 ^ 32 - 1))) ∧
    ends (.ldrop o) s.mem (fun t => t.myTile.e.landErr = true ∧ t.myTile.e.landCode = a % 256 ∧ t.myTile.e.landHid = p.hid ∧
      t.myTile.e.landDrops = min (e.landDrops + 1) (2 ^ 32 - 1))) ∧
  (∀ (s : State),
    let g := s.focus.tile
    let e := s.myTile.e
    let same (i : Instr) (p : State → Prop) : Prop := ∃ t, exec i s = .next t ∧ Same s t ∧ p t
    (∀ m rest a n d row u, (s.home g).inbox = m :: rest → m.body = .packet a n d row u → claimWaits (m :: rest) m.srcHome u = false →
      (e.landQ.length < 4 → same .landingPacketArrival (fun t => t.myTile.e.landQ = e.landQ ++
        [⟨a, n, d, row, u, m.src, m.srcHome, m.region, m.handler, m.seq, m.sthr⟩] ∧ (t.home g).inbox = rest)) ∧
      (4 ≤ e.landQ.length → exec .landingPacketArrival s = .next s)) ∧
    (∀ p rest, isTileHome g = true → e.landQ = p :: rest → e.landNow = none → (s.thread g 2).run.ts = .idle → s.landHeld g = false →
      let v := s.mem.readNat (padKey g (s.myTile.r.lhtbase * 512 + 8 * p.hid)) 8
      (2 ^ 63 ≤ v → v % 2 ^ 63 < 131072 → v % 4 = 0 → ∃ t, exec .handlerStart s = .next t ∧ t.mem = s.mem ∧ t.myTile.e.landQ = rest ∧
        t.myTile.e.landNow = some p ∧ t.myTile.e.landBuf = p.data % 256 ^ p.bytes ∧ t.myTile.e.landCl = p.bytes ∧
        (t.thread g 2).run.ts = .running ∧ (t.thread g 2).r.pc = s.pcAt g (v % 131072) ∧
        (t.thread g 2).r.getX 10 = BitVec.ofNat 64 (s.prefixOf g + p.addr) ∧ (t.thread g 2).r.getX 11 = BitVec.ofNat 64 p.bytes ∧
        (t.thread g 2).r.getX 12 = BitVec.ofNat 64 p.src ∧ ∀ h, h < 2 → t.thread g h = s.thread g h) ∧
      (v < 2 ^ 63 ∨ 131072 ≤ v % 2 ^ 63 ∨ v % 4 ≠ 0 → same .handlerStart (fun t => t.myTile.e.landQ = rest ∧ t.myTile.e.landNow = none ∧
        t.myTile.e.landErr = true ∧ t.myTile.e.landCode = 0x80))) ∧
    (∀ p rest, e.landQ = p :: rest → e.landNow = none → (s.thread g 2).run.ts = .idle → (s.region (s.regionOf g)).ten = ctxTerminating →
      same .handlerStart (fun t => t.myTile.e.landQ = rest ∧ t.myTile.e.landNow = none ∧ t.myTile.e.landErr = true ∧
        t.myTile.e.landCode = 0x80)) ∧
    (∀ p rest, e.landQ = p :: rest → s.landHeld g = true → (s.region (s.regionOf g)).ten ≠ ctxTerminating → exec .handlerStart s = .next s) ∧
    (∀ p, (s.thread g 2).run.ts = .running → e.landNow = some p →
      (4096 ≤ (s.thread g 2).r.instret → same .handlerLimit (fun t => t.myTile.e.landNow = none ∧ t.myTile.e.landCode = 0x82 ∧
        (t.thread g 2).run.ts = .idle)) ∧
      ((s.thread g 2).r.instret < 4096 → exec .handlerLimit s = .next s)) ∧
    same .landStatClear (fun t => t.myTile.e.landErr = false) ∧
    same .landCntRead (fun t => t.ioRead = e.landDrops * 2 ^ 32 + e.landCommits ∧ t.myTile.e.landDrops = 0 ∧ t.myTile.e.landCommits = 0))


/-! Translation, shootdowns, moved memory -/

/-- 12 R274 to R278, 16 R347: a walk that finds a leaf for an access that it serves fills the tile's cache and serves the access that waits;
the entry covers the address, is aligned, readable, and writable for a write. A walk that misses ends in the report 0x18 with its sub-cause;
one that meets a claimed line waits. A shootdown captures its
request, removes every entry it covers at each tile, has each tile acknowledge once what may have used one is over, and is DONE when
all have; a second GO in its course is ignored. -/
def Obligations.TranslationsAndShootdowns : Prop :=
  ∀ (s : State) (index island tile value : Nat) (w : Walk) (req : Nat × Nat × Nat × Nat),
    let g := s.focus.tile
    let i := s.island island
    let e := s.myTile.e
    let s1 := s.modMyTile (fun t => t.modEng (fun e => { e with walks := e.walks.eraseIdx index }))
    let runs (i : Instr) (p : State → Prop) : Prop := ∃ t, exec i s = .next t ∧ Same s t ∧ p t
    let hit (e : XlEntry) : Bool := invCovers req.1 req.2.1 req.2.2.1 req.2.2.2 e
    (∀ va k x, walkFor s g va k = .entry x → (s.region (s.regionOf g)).xlatMode = 10 ∧
      x.covers (s.regionOf g) (s.region (s.regionOf g)).asid (va % 2 ^ 57) = true ∧ x.level ≤ 3 ∧ x.ppn % 512 ^ x.level = 0 ∧ x.r = true ∧
      (k.isWrite = true → x.w = true)) ∧
    (e.walks[index]? = some w →
      (walkResult s g w = .busy → exec (.translationWalk index) s = .next s) ∧
      (∀ x, walkResult s g w = .entry x → runs (.translationWalk index) (fun t =>
        t.myTile.e.walks = e.walks.eraseIdx index ∧ x ∈ t.myTile.e.xlat ∧
        (w.thread < 3 → (t.thread g w.thread).run.xl = (s.thread g w.thread).run.xl ++ [x]) ∧
        (3 ≤ w.thread → ∀ c ∈ e.copies, c.serial = w.entry → { c with xl := c.xl ++ [x] } ∈ t.myTile.e.copies))) ∧
      (∀ sub, walkResult s g w = .miss sub →
        (∀ s2 i, w.thread < 2 → (∀ u ∈ e.unsent, u.replay = false) → issue (s1.lookAt g w.thread) = .go s2 i → s2.focus.tile = g → s2.focus.thread = w.thread →
          s2.midway g w.thread = false → s2.me.run.ts = .running → ∃ t, exec (.translationWalk index) s = .next t ∧ t.mem = s2.mem ∧
          (∀ g h, (t.thread g h).r = (s2.thread g h).r) ∧ t.reported g 0x18 sub ∧ (t.thread g w.thread).run.ts = .stopped) ∧
        (∀ c, 3 ≤ w.thread → s.entryOf g w.entry = some c → s.midway g c.thread = false → ∃ t, exec (.translationWalk index) s = .next t ∧ t.mem = s.mem ∧
          (∀ g h, (t.thread g h).r = (s.thread g h).r) ∧ t.reported g 0x18 sub ∧
          t.myTile.e.copies = e.copies.filter (fun x => x.serial != c.serial)))) ∧
    (let done (t : State) : Prop := (t.island island).invDone = (i.invDone && decide (value / 2 ^ 62 % 2 = 0)) ∧
       (t.island island).invIe = decide (value / 2 ^ 19 % 2 = 1)
     (value / 65536 % 2 = 1 → i.invBusy = false → runs (.wxlatInvGo island value) (fun t => done t ∧ (t.island island).invBusy = true ∧
       (t.island island).invReq = some (value / 2 ^ 17 % 4, value % 65536, i.invVa, i.invN) ∧
       ∀ g, (g, s.tile g) ∈ s.tiles → waferOf g = island / 48 → 2 ≤ value / 2 ^ 17 % 4 ∨ (s.region (s.regionOf g)).asid = value % 65536 →
         g ∈ (t.island island).invWait)) ∧
     (value / 65536 % 2 = 1 → i.invBusy = true → exec (.wxlatInvGo island value) s = .next s) ∧
     (value / 65536 % 2 = 0 → runs (.wxlatInvGo island value) (fun t => done t ∧ (t.island island).invBusy = i.invBusy ∧
       (t.island island).invReq = i.invReq))) ∧
    (i.invReq = some req → i.invWait.contains tile = true → i.invTold.contains tile = false →
      (∀ u ∈ (s.tile tile).e.units, ¬(isTileHome u.home = true ∧ (s.tile u.home).c.dead = true)) →
      runs (.tileInvalidation island tile) (fun t => (∀ x, x ∈ (t.tile tile).e.xlat ↔ x ∈ (s.tile tile).e.xlat ∧ hit x = false) ∧
        ((s.tile tile).e.units = [] → outsDrained s tile = true → (t.island island).invWait = i.invWait.filter (· != tile)) ∧
        ((s.tile tile).e.units ≠ [] → (t.island island).invWait = i.invWait))) ∧
    (i.invReq = some req → i.invWait.contains tile = false → exec (.tileInvalidation island tile) s = .next s) ∧
    (i.invBusy = true → i.invWait = [] → runs (.invalidationDone island) (fun t => (t.island island).invBusy = false ∧
      (t.island island).invDone = true ∧ (i.invIe = true → (0x45, island) ∈ (t.island island).notices))) ∧
    (i.invWait ≠ [] → exec (.invalidationDone island) s = .next s) ∧
    runs (.wxlatInvDoneClear island) (fun t => (t.island island).invDone = false)

/-- 17 R374, R375, 20 R407, R411, R412: moving a slice. Starting an entry of a port's forwarding table names the chunk and its target; each
line moves to the same place of the target once no claim covers it, and the line after it is next; the last one marks them all moved. The
host's window, or a virtual function's, reads and writes the edge memory that island 0 opened to it past moved lines, and finds nothing
beyond a module or outside its ranges. No other byte of memory changes. -/
def Obligations.SlicesMoveAndHostsReach : Prop :=
  ∀ (s : State) (home entry chunk target wafer pa len d : Nat) (vf : Option Nat) (f : Forward),
    let inRange : Prop := ∃ w ∈ s.hostRanges wafer vf, w.1 ≤ pa ∧ pa + len ≤ w.1 + w.2
    let q := f.target + 64 * f.moved
    let to_ := edgeHome (homeWafer home) (q / 68719476736 % 128)
    let b := q % 68719476736
    let a := f.chunk * 2097152 + 64 * f.moved
    (isEdgeHome home = true → entry < 64 → ∃ t, exec (.sliceMoveStart home entry chunk target) s = .next t ∧ Same s t ∧
      (t.home home).forwards.look entry {} =
        { v := true, chunk := chunk % 32768, target := target % 2 ^ 56 / 2097152 * 2097152 }) ∧
    (isEdgeHome home = false ∨ 64 ≤ entry → exec (.sliceMoveStart home entry chunk target) s = .next s) ∧
    ((s.home home).forwards.find entry = some f → f.v = true → f.fwd = false →
      (s.claimed home a 64 = false → s.claimed to_ b 64 = false → ∃ t m, exec (.sliceMoveLine home entry) s = .next t ∧
        Done s t s.me.r s.myTile.r m ∧
        (∀ k, k < 64 → m.readNat (homeKey to_ b + k) 1 = s.mem.readNat (homeKey home a + k) 1) ∧
        (∀ k, ¬(homeKey to_ b ≤ k ∧ k < homeKey to_ b + 64) → m.read k = s.mem.read k) ∧
        (t.home home).forwards.look entry {} = { f with moved := f.moved + 1, fwd := decide (f.moved + 1 = 32768) }) ∧
      (s.claimed home a 64 = true ∨ s.claimed to_ b 64 = true → exec (.sliceMoveLine home entry) s = .next s)) ∧
    (∀ x, inRange → edgeExists pa len = true → edgeClaimed s wafer pa len = false → pa / 64 = (pa + len - 1) / 64 → 0 < len → edgeSpot s wafer pa = x →
      (∃ t, exec (.hostWindowAccess ⟨wafer, vf⟩ pa len none) s = .next t ∧ Same s t ∧ t.ioRead = s.mem.readNat (homeKey x.1 x.2) len) ∧
      ∃ t m, exec (.hostWindowAccess ⟨wafer, vf⟩ pa len (some d)) s = .next t ∧ Done s t s.me.r s.myTile.r m ∧
        m.readNat (homeKey x.1 x.2) len = d % 256 ^ len ∧
        ∀ k, ¬(homeKey x.1 x.2 ≤ k ∧ k < homeKey x.1 x.2 + len) → m.read k = s.mem.read k) ∧
    (¬inRange ∨ edgeExists pa len = false ∨ edgeClaimed s wafer pa len = true →
      exec (.hostWindowAccess ⟨wafer, vf⟩ pa len none) s = .next s ∧ exec (.hostWindowAccess ⟨wafer, vf⟩ pa len (some d)) s = .next s)

/-! The wafer, its clocks and its registers -/

/-- 18 R382, R383, R390 to R393, 19 R396 to R401: a frequency takes effect at the lower of what is asked and what the rail allows; a rail
moves with its block slowed first; a droop alarm counts and stretches the clock; where a tile's source clock stops, it takes the port that
R382 chooses among the repeaters left, or loses its lock, and a source that the island writes is taken where it has a clock to give; a
proofing pass falls due, waits for its tile to rest, and counts; a wafer advance gives every live coordinate one generation above all
others, and leaves the dead ones theirs. Nothing of
it changes a register of a program or a byte of memory. -/
def Obligations.ClocksRailsAndPasses : Prop :=
  ∀ (s : State) (cluster island value port wafer : Nat),
    let g := s.focus.tile
    let i := s.island island
    let c := s.myTile.c
    let own := s.island (islandOf g)
    let runs (i : Instr) (p : State → Prop) : Prop := ∃ t, exec i s = .next t ∧ Same s t ∧ p t
    let settled (t : State) (fmax : Nat) : Prop := ∀ x ∈ islandClusters island, islandOfCluster x = island →
      (t.cluster x).mhz = (s.cluster x).mhz ∧ (t.cluster x).eff = min (s.cluster x).mhz fmax
    let n := value % 2048
    let mv := value % 1024
    (600 ≤ n → n ≤ 1500 → n % 25 = 0 → runs (.clusFreqWrite cluster value) (fun t => (t.cluster cluster).mhz = n ∧
      (t.cluster cluster).eff = min n (s.island (islandOfCluster cluster)).railFmax ∧ ∀ x, x ≠ cluster → t.cluster x = s.cluster x)) ∧
    (n < 600 ∨ 1500 < n ∨ n % 25 ≠ 0 → exec (.clusFreqWrite cluster value) s = .next s) ∧
    (650 ≤ mv → mv ≤ 850 → i.railBusy = false → runs (.railCtlWrite island value) (fun t => (t.island island).railBusy = true ∧
      (t.island island).railNext = mv ∧ (t.island island).railMv = i.railMv ∧ settled t (min (fmaxOf i.railMv) (fmaxOf mv)))) ∧
    (mv < 650 ∨ 850 < mv ∨ i.railBusy = true → exec (.railCtlWrite island value) s = .next s) ∧
    (i.railBusy = true → runs (.railChangeComplete island) (fun t => (t.island island).railBusy = false ∧
      (t.island island).railMv = i.railNext ∧ settled t (fmaxOf i.railNext))) ∧
    (c.droopThr ≠ 0 → runs .droopAlarm (fun t => t.myTile.c.droopCnt = min (c.droopCnt + 1) (2 ^ 32 - 1) ∧ t.myTile.c.droopLast = s.now ∧
      t.myTile.c.droopFrom = s.now ∧ t.myTile.c.droopLeft = 12000)) ∧
    (c.droopThr = 0 → runs .droopAlarm (fun t => t.myTile.c.droopCnt = c.droopCnt)) ∧
    (let took (t : State) (p : Nat) : Prop := t.myTile.c.clkSrc = some p ∧ t.myTile.c.clkLost = false ∧
       t.myTile.c.clkRelock = min (c.clkRelock + 1) 65535
     let s1 := s.stopSource g
     (port = (s.clockSource g).1 → runs (.clockSourceSwitch port) (fun t =>
       match clockPort s1.repeaterBad ((s1.clockFeeds (waferOf g)).filter (· != g)) g with
       | some p => took t p
       | none => t.myTile.c.clkLost = true ∧ t.myTile.c.clkSrc = c.clkSrc)) ∧
     (port ≠ (s.clockSource g).1 → ((clockVia s.repeaterBad (s.clockFeeds (waferOf g)) g port).isSome = true →
         runs (.clockSourceSwitch port) (fun t => took t port)) ∧
       (clockVia s.repeaterBad (s.clockFeeds (waferOf g)) g port = none → exec (.clockSourceSwitch port) s = .next s))) ∧
    (c.proofing = false → c.proofDue = false → s.passMayStart g = true → (∀ m h, (s.thread m h).run.clear) → ∀ fails, runs (.proofingPass fails) (fun t => t.myTile.c.proofDue = true)) ∧
    (c.proofing = false → c.proofDue = true → s.passReady g = true → ∀ fails, runs (.proofingPass fails) (fun t => t.myTile.c.proofing = true)) ∧
    (c.proofing = true → runs (.proofingPass false) (fun t => t.myTile.c.proofing = false ∧ t.myTile.c.proofDue = false ∧
        (t.island (islandOf g)).proofCnt = min (own.proofCnt + 1) (2 ^ 32 - 1) ∧ (t.island (islandOf g)).proofFails = own.proofFails) ∧
      ((∀ q, ∀ x ∈ (s.cluster (clusterOf g)).queue q, x.spill = none) → ∃ t, exec (.proofingPass true) s = .next t ∧ t.mem = s.mem ∧ t.myTile.c.quarantined = true ∧ t.myTile.c.dead = true ∧
        (t.island (islandOf g)).proofFails = min (own.proofFails + 1) 65535 ∧ (t.island (islandOf g)).proofLast = s.nameOf g)) ∧
    ((∀ p ∈ s.regions, s.holdsNames wafer p.1 = true → p.2.ten = 0) → ∃ t, exec (.waferAdvance wafer) s = .next t ∧ t.mem = s.mem ∧
      (∀ g h, (t.thread g h).r = (s.thread g h).r) ∧ (∀ g, (t.tile g).r = (s.tile g).r) ∧
      ∀ g, waferOf g = wafer → (s.tile g).c.hole = false → (t.genOf g = if (s.tile g).c.dead then s.genOf g else nextGen (s.topGen wafer))) ∧
    ((∃ p ∈ s.regions, s.holdsNames wafer p.1 = true ∧ p.2.ten ≠ 0) → exec (.waferAdvance wafer) s = .next s)

/-- 01 R17, 04 R90, 12 R269, R273, 08 R205, R214, 17 R357, R374, 18 R383, R393, 19 R396, R403, 20 R408, 21 R421: an island writes registers and
scratchpads over the system path. A write takes the bits the register has and drops the others; an aligned scratchpad access of 1, 2, 4 or 8 bytes is stored unless a
claim covers it; a write past a window's registers changes nothing, and one at the accumulators waits for the queued matrix entries (06 R145); the region seed takes its halves; an unlisted offset, or any but LC_REQ in the safe state, changes nothing; a stale name is refused, and its island hears of it. A read of a counting register returns it
and clears the count. -/
def Obligations.RegistersOverTheSystemPath : Prop :=
  ∀ (s : State) (cluster island name off value home entry : Nat), value < 2 ^ 64 →
    let tile := nameTile name
    let g := s.focus.tile
    let k := s.cluster cluster
    let i := s.island island
    let c := s.myTile.c
    let at_ (wafer : Nat) (target : RegTarget) (p : State → Prop) : Prop := (s.wafer wafer).bootSafe = false →
      ∃ t, exec (.registerWrite target value) s = .next t ∧ Same s t ∧ p t
    let inCluster (off : Nat) (p : Cluster → Prop) : Prop := s.staleName (nameWafer name) name = false →
      at_ (nameWafer name) (.tile name 8 15 off) (fun t => p (t.cluster (clusterOf tile)))
    let ks := s.cluster (clusterOf tile)
    let reads (i : Instr) (v : Nat) (p : State → Prop) : Prop := ∃ t, exec i s = .next t ∧ Same s t ∧ t.ioRead = v ∧ p t
    (∀ n ∈ [1, 2, 4, 8], (s.wafer (nameWafer name)).bootSafe = false → s.staleName (nameWafer name) name = false → isTileHome tile = true →
      off % n = 0 → off + n ≤ 131072 →
      (s.claimed tile off n = false → ∃ t m, exec (.registerWrite (.tile name n 0 off) value) s = .next t ∧ Done s t s.me.r s.myTile.r m ∧
        m.readNat (padKey tile off) n = value % 256 ^ n ∧ ∀ a, ¬(padKey tile off ≤ a ∧ a < padKey tile off + n) → m.read a = s.mem.read a) ∧
      (s.claimed tile off n = true → exec (.registerWrite (.tile name n 0 off) value) s = .next s)) ∧
    (∀ n w, (s.wafer (nameWafer name)).bootSafe = false → s.staleName (nameWafer name) name = false → 1 ≤ w → w ≤ 6 → off < 2 ^ 20 →
      winEnd w < off + n ∨ off % n ≠ 0 ∨ (w = 5 ∧ (s.tile tile).e.mq ≠ []) → exec (.registerWrite (.tile name n w off) value) s = .next s) ∧
    (∀ n w, s.staleName (nameWafer name) name = true → at_ (nameWafer name) (.tile name n w off) (fun t =>
      (0x01, name) ∈ (t.island (islandOf tile)).notices)) ∧
    inCluster 0x4008 (fun q => q = { ks with ageLimit := max 1 (value % 65536) }) ∧
    inCluster 0x4020 (fun q => q = { ks with taskSlice := value % 2 ^ 32 }) ∧
    inCluster 0xB008 (fun q => q = { ks with stepN := value % 65536 }) ∧
    (∀ n, n < 8 → inCluster (0x4100 + 8 * n) (fun q => q = { ks with scratch := ks.scratch.put n (value % 2 ^ 32) })) ∧
    (∀ n, n < 256 → inCluster (0xC000 + 8 * n) (fun q => q = { ks with access := ks.access.put n (value % 16) })) ∧
    inCluster 0x3000 (fun q => q = ks) ∧
    at_ (island / 48) (.island island 0x20000) (fun t => t.island island = { i with invVa := value / 4096 % 2 ^ 45 * 4096 }) ∧
    at_ (island / 48) (.island island 0x31000) (fun t => t.island island = { i with proofEn := decide (value / 2 ^ 63 % 2 = 1), proofPeriod := max 60000 (value % 2 ^ 32) }) ∧
    (∀ id, id < 256 → s.policing (island / 48 * 256 + id) island = island →
      let r := island / 48 * 256 + id
      at_ (island / 48) (.island island (0x21000 + 8 * id)) (fun t => t.region r =
        if value / 2 ^ 60 = 0 ∨ value / 2 ^ 60 = 10 then
          { s.region r with xlatMode := value / 2 ^ 60, asid := value / 2 ^ 44 % 65536, ppn := value % 2 ^ 44 }
        else s.region r) ∧
      at_ (island / 48) (.island island (0x22000 + 64 * id + 0x10)) (fun t => t.region r = { s.region r with sliceLen := value % 2 ^ 32 }) ∧
      at_ (island / 48) (.island island (0x29000 + 8 * id)) (fun t => t.region r =
        { s.region r with hangWindow := if 0 < value % 2 ^ 32 ∧ value % 2 ^ 32 < 10000 then 10000 else value % 2 ^ 32 })) ∧
    (∀ r, at_ (r / 256) (.seed r 0) (fun t => t.region r = { s.region r with seed := (s.region r).seed / 2 ^ 64 * 2 ^ 64 + value % 2 ^ 64 }) ∧
      at_ (r / 256) (.seed r 1) (fun t => t.region r = { s.region r with seed := (s.region r).seed % 2 ^ 64 + value % 2 ^ 64 * 2 ^ 64 })) ∧
    (isEdgeHome home = true → entry < 64 → value < 2 ^ 63 → at_ (homeWafer home) (.port home entry) (fun t =>
      (t.home home).forwards = (s.home home).forwards.del entry)) ∧
    ((s.wafer (nameWafer name)).bootSafe = true → exec (.registerWrite (.tile name 8 15 off) value) s = .next s) ∧
    reads (.curStepLimitRead cluster) (k.stalls * 2 ^ 32 + k.stepN) (fun t => t.cluster cluster = { k with stalls := 0 }) ∧
    reads (.proofStatRead island) (i.proofFails * 2 ^ 48 + i.proofLast) (fun t => t.island island = { i with proofFails := 0 }) ∧
    reads (.proofCntRead island) i.proofCnt (fun t => t.island island = { i with proofCnt := 0 }) ∧
    reads .droopCntRead c.droopCnt (fun t => t.myTile.c.droopCnt = 0) ∧
    reads .clkSrcRead (bit (s.clockLocked g) 63 + bit (s.clockSource g).2 62 + c.clkRelock * 2 ^ 32 + (s.clockSource g).1) (fun t => t.myTile.c.clkRelock = 0)

/-! Islands, controllers and the link between wafers -/

/-- 04 R74, 20 R410, R411, R418, 21 R427: the island serves the call of a thread that waits for it, once no table entry that it reads lies in a
claimed line: number 0 answers 0, an unknown number
NOSYS, the file, queue and grant calls their result or a negative number, with the change to the region's files, queues or grant and the
bytes read into the caller's buffer before the reply leaves; EXIT ends the context without a reply. The reply completes the caller's
`ecall`. No program register changes before that. -/
def Obligations.SystemCallsAreServed : Prop :=
  ∀ (s : State) (m : Msg) (rest : List Msg) (a : List Nat) (pc result written : Nat) (data : List Nat),
    (s.home s.callHome).inbox = m :: rest → m.body = .syscall a pc → m.srcHome = s.focus.tile → m.sthr = s.focus.thread →
    s.callerWaits m 1 = true → s.passes m.dstHome m.src m.srcHome → waferOf s.focus.tile < 64 → isTileHome s.focus.tile = true → m.region < 256 →
    let r := homeWafer m.srcHome * 256 + m.region
    let w := regWafer r
    let q := s.region r
    let number := a.getD 7 0
    let a0 := a.getD 0 0
    let s1 := s.modHome s.callHome (fun q => { q with inbox := rest })
    let answers (i : Instr) (v st : Nat) (p : State → Prop) : Prop := ∃ t, exec i s = .next t ∧ Same s t ∧
      t.sent m.dstHome 15 m.srcHome 9 (.callReply v st) ∧ p t
    let fails (i : Instr) (v : Nat) : Prop := answers i v 0 (fun t => t.region r = q)
    let busy (va n : Nat) (k : AccKind) : Bool := bufferBusy s r va n k
    let len := min (a.getD 2 0) 1073741824
    let pol := s.policing r (w * 48)
    (number = 0 → answers .syscallNop 0 0 (fun _ => True)) ∧ (8 < number → answers .syscallNop 0 2 (fun _ => True)) ∧
    (number = 1 → let v := result % 2 ^ 64
      let path := pathPinned s1 r (2 ^ 45) a0
      (2 < a.getD 1 0 ∨ path = some false → fails (.openFile result) (2 ^ 64 - 1)) ∧
      (a.getD 1 0 ≤ 2 → path = none → exec (.openFile result) s = .next s) ∧
      (a.getD 1 0 ≤ 2 → path = some true → (2 ^ 63 ≤ v → fails (.openFile result) v) ∧
        (v < 2 ^ 63 → answers (.openFile result) v 0 (fun t => (t.region r).files.find v = some (a.getD 1 0, 0))))) ∧
    (number = 2 → (q.files.find a0 ≠ none → answers .closeFile 0 0 (fun t => (t.region r).files = q.files.del a0)) ∧
      (q.files.find a0 = none → fails .closeFile (2 ^ 64 - 2))) ∧
    (number = 3 → busy (a.getD 1 0) len .write = false → (∀ e, fileBuffer s r a 1 .write = .inl e → fails (.readFile data) e) ∧
      (∀ l, fileBuffer s r a 1 .write = .inr l → runsClaimed s w l = false →
        let bs := (data.take (a.getD 2 0)).map (BitVec.ofNat 8)
        ∃ t, exec (.readFile data) s = .next t ∧ Done s t s.me.r s.myTile.r (writeRuns s1 w l bs).mem ∧
          t.sent m.dstHome 15 m.srcHome 9 (.callReply bs.length 0) ∧
          ∀ x n, l = [(x, n)] → bs.length ≤ n → (∀ p, (s.home (edgeHome w p)).forwards = []) →
            (∀ k, k < bs.length → t.mem.readNat (edgeKey w (x + k)) 1 = (bs.getD k 0).toNat) ∧
            ∀ k, ¬(edgeKey w x ≤ k ∧ k < edgeKey w x + bs.length) → t.mem.read k = s.mem.read k)) ∧
    (number = 4 → busy (a.getD 1 0) len .read = false → (∀ e, fileBuffer s r a 0 .read = .inl e → fails (.writeFile written) e) ∧
      (∀ l, fileBuffer s r a 0 .read = .inr l → runsClaimed s w l = false → let n := min written (a.getD 2 0)
        answers (.writeFile written) n 0 (fun t => t.ioRead = bytesNat ((readRuns s w l).take n)))) ∧
    (number = 5 → busy (a.getD 2 0) (64 * min (a.getD 1 0) 1024) .read = false → busy (a.getD 3 0) (16 * min (a.getD 1 0) 1024) .write = false →
      (nvqArgsOk s r a = false → fails .nvqopen (2 ^ 64 - 1)) ∧
      (nvqArgsOk s r a = true → Config.namespaceBlock a0 = none → fails .nvqopen (2 ^ 64 - 2)) ∧
      (∀ slot, nvqArgsOk s r a = true → Config.namespaceBlock a0 ≠ none → leafSlot s w (a.getD 4 0) 4 q.ppn = .mapped ∨
        ((List.range 256).any (fun n => !(s.nvmeQ pol n).opened) = true ∧ leafSlot s w (a.getD 4 0) 4 q.ppn = .slot slot ∧
          bytesNat (edgeRead s w slot 8) % 2 = 1) → fails .nvqopen (2 ^ 64 - 1)) ∧
      (nvqArgsOk s r a = true → Config.namespaceBlock a0 ≠ none → leafSlot s w (a.getD 4 0) 4 q.ppn = .none → fails .nvqopen (2 ^ 64 - 3)) ∧
      (∀ b n slot, nvqArgsOk s r a = true → Config.namespaceBlock a0 = some b →
        (List.range 256).find? (fun n => !(s.nvmeQ pol n).opened) = some n → leafSlot s w (a.getD 4 0) 4 q.ppn = .slot slot →
        bytesNat (edgeRead s w slot 8) % 2 = 0 → ∃ t, exec .nvqopen s = .next t ∧
          Done s t s.me.r s.myTile.r (edgeWrite s1 w slot (natBytes 8 ((2 ^ 44 + pol % 48 * 2 ^ 32 + 4096) / 4096 * 1024 + 215))).mem ∧
          t.sent m.dstHome 15 m.srcHome 9 (.callReply n 0) ∧
          t.nvmeQ pol n = { opened := true, region := r, ns := a0, size := a.getD 1 0, sqVa := a.getD 2 0, cqVa := a.getD 3 0 })) ∧
    (number = 6 → (a0 < 256 → (s.nvmeQ pol a0).opened = true → (s.nvmeQ pol a0).region = r →
        answers .nvqclose 0 0 (fun t => t.nvmeQ pol a0 = {})) ∧
      (256 ≤ a0 ∨ (s.nvmeQ pol a0).opened = false ∨ (s.nvmeQ pol a0).region ≠ r → fails .nvqclose (2 ^ 64 - 2))) ∧
    (number = 7 → q.ten = 3 ∨ q.ten = 4 → ∃ t, exec .exitCall s = .next t ∧ ((t.region r).ten = 6 ∨ (t.region r).ten = 0)) ∧
    (number = 8 → (a0 = 1 → answers .dbggrant 0 0 (fun t => (t.region r).dbgAllowed = true)) ∧
      (a0 = 0 → q.dbgEn = false → answers .dbggrant 0 0 (fun t => (t.region r).dbgAllowed = false)) ∧
      (1 < a0 → fails .dbggrant (2 ^ 64 - 1)))

/-- 20 R416 to R418: NVMe queues and the Oxsor link. A submission doorbell hands the entries up to the tail to the controller, one of an
unknown operation or namespace back as a completion with status 2; a completion doorbell gives the consumed entries back; the controller
completes its oldest command with its data in memory first. A write is submitted with force unit access (13 R293). A frame enters the
destination wafer at the coordinate it left by, when that router has room, past those of other virtual channels that have none; a path without
delivery for 10 ms is down, and every island of both wafers knows. -/
def Obligations.NvmeQueuesAndOxsorPaths : Prop :=
  ∀ (s : State) (island queue status src dst : Nat) (data : List Nat) (l : List (Nat × Nat)) (pa : Nat),
    let k := s.nvmeQ island queue
    let w := regWafer k.region
    let runs (i : Instr) (p : State → Prop) : Prop := ∃ t, exec i s = .next t ∧ Same s t ∧ p t
    let head := (k.sqHead + 1) % k.size
    let e := bytesNat (readRuns s w l)
    let cid := e / 65536 % 65536
    let op := e % 256
    let lba := e / 2 ^ 320 % 2 ^ 64
    let blocks := e / 2 ^ 384 % 65536 + 1
    let entry (sq cid st : Nat) : Nat := (sq + queue * 65536) * 2 ^ 64 + (cid % 65536 + (if k.phase then 65536 else 0) + st % 32768 * 131072) * 2 ^ 96
    let unmoved : Prop := w < 64 ∧ ∀ p, (s.home (edgeHome w p)).forwards = []
    let completed (i : Instr) (sq cid st : Nat) (t : State) : Prop := exec i s = .next t ∧ Done s t s.me.r s.myTile.r t.mem ∧
      t.mem.readNat (edgeKey w pa) 16 = entry sq cid st % 256 ^ 16 ∧ (t.nvmeQ island queue).cqTail = (k.cqTail + 1) % k.size ∧
      (t.nvmeQ island queue).phase = (if k.cqTail + 1 = k.size then !k.phase else k.phase)
    let ready : Prop := runsClaimed s w l = false ∧ bufferHeld s k.region (k.cqVa + 16 * k.cqTail) 16 .write = false
    let outside (x n : Nat) (t : State) : Prop := ∀ a, ¬(edgeKey w x ≤ a ∧ a < edgeKey w x + n) →
      ¬(edgeKey w pa ≤ a ∧ a < edgeKey w pa + 16) → t.mem.read a = s.mem.read a
    (k.opened = true → (k.sqTail + k.size - k.sqHead) % k.size = 1 → bufferRuns s k.region (k.sqVa + 64 * k.sqHead) 64 .read = some l → ready →
      (op = 0 → e / 2 ^ 32 % 2 ^ 32 = k.ns → runs (.nvmeSubmissionDoorbell island queue) (fun t => (t.nvmeQ island queue).sqHead = head ∧
        (t.nvmeQ island queue).ctrl = k.ctrl ++ [⟨cid, 0, e / 2 ^ 414 % 2 == 1, lba, blocks, []⟩])) ∧
      (∀ b x, (op = 1 ∨ op = 2) → e / 2 ^ 32 % 2 ^ 32 = k.ns → Config.namespaceBlock k.ns = some b →
        let len := (e / 2 ^ 384 % 65536 + 1) * b
        let prp := e / 2 ^ 192 % 2 ^ 64
        len ≤ 4096 - prp % 4096 → regionPa s k.region prp (if op = 2 then .write else .read) = some x →
        runs (.nvmeSubmissionDoorbell island queue) (fun t => (t.nvmeQ island queue).sqHead = head ∧
          (t.nvmeQ island queue).ctrl = k.ctrl ++ [⟨cid, op, op == 1 || e / 2 ^ 414 % 2 == 1, lba, blocks, [(x, len)]⟩])) ∧
      (2 < op ∨ e / 2 ^ 32 % 2 ^ 32 ≠ k.ns → unmoved → bufferRuns s k.region (k.cqVa + 16 * k.cqTail) 16 .write = some [(pa, 16)] →
        ∃ t, completed (.nvmeSubmissionDoorbell island queue) head cid 2 t ∧ outside pa 16 t ∧ (t.nvmeQ island queue).sqHead = head ∧
          (t.nvmeQ island queue).ctrl = k.ctrl)) ∧
    (k.opened = false → exec (.nvmeSubmissionDoorbell island queue) s = .next s ∧ exec (.nvmeCompletionDoorbell island queue) s = .next s) ∧
    (k.opened = true → runs (.nvmeCompletionDoorbell island queue) (fun t => t.nvmeQ island queue = { k with cqSeen := k.cqHead })) ∧
    (∀ c more, k.ctrl = c :: more → k.opened = true → (k.cqTail + 1) % k.size ≠ k.cqSeen → runsClaimed s w c.runs = false →
      bufferHeld s k.region (k.cqVa + 16 * k.cqTail) 16 .write = false → unmoved →
      bufferRuns s k.region (k.cqVa + 16 * k.cqTail) 16 .write = some [(pa, 16)] →
      (c.op ≠ 2 → ∃ t, completed (.nvmeControllerCompletion island queue status data) k.sqHead c.cid status t ∧ outside pa 16 t ∧
        (t.nvmeQ island queue).ctrl = more ∧ (c.op = 1 → t.ioRead = bytesNat (readRuns s w c.runs))) ∧
      (∀ x n, c.op = 2 → c.runs = [(x, n)] → edgeExists x n = true → data.length ≤ n → (x + n ≤ pa ∨ pa + 16 ≤ x) →
        (∀ va, walkFrom s w k.region (s.region k.region).asid va .write 5 (s.region k.region).ppn =
          walkFrom { s with mem := (writeRuns s w c.runs (data.map (BitVec.ofNat 8))).mem } w k.region (s.region k.region).asid va .write 5
            (s.region k.region).ppn) →
        ∃ t, completed (.nvmeControllerCompletion island queue status data) k.sqHead c.cid status t ∧ outside x n t ∧
          (t.nvmeQ island queue).ctrl = more ∧ ∀ j, j < data.length → t.mem.readNat (edgeKey w (x + j)) 1 = data.getD j 0 % 256)) ∧
    ((k.cqTail + 1) % k.size = k.cqSeen → exec (.nvmeControllerCompletion island queue status data) s = .next s) ∧
    (let p := s.oxsor.look (oxsorKey src dst) {}
     (∀ pre m rest, p.queue = pre ++ m :: rest → p.down = false → (∀ x ∈ pre, s.farRoom dst x = false ∧ x.vc ≠ m.vc) → s.farRoom dst m = true →
       let at_ := (m.route.getD (0, false, false)).1
       let g := dst * waferTiles + at_ / 4
       let buf (t : State) := (t.tile g).rt.bufs.look (bufKey (at_ % 4) m.vc (m.route.getD (0, false, false)).2.1) []
       s.ingressRefusal (src * waferTiles + at_ / 4) g m = none →
         runs (.oxsorFrame src dst) (fun t => (t.oxsor.look (oxsorKey src dst) {}).queue = pre ++ rest ∧
           (t.oxsor.look (oxsorKey src dst) {}).seq = (p.seq + 1) % 2 ^ 32 ∧ ∃ m', buf t = buf s ++ [m'] ∧
             m'.body = m.body ∧ m'.dst = m.dst ∧ m'.src = m.src)) ∧
     ((∀ x ∈ p.queue, s.farRoom dst x = false) ∨ p.down = true → exec (.oxsorFrame src dst) s = .next s) ∧
     exec (.oxsorRetransmit src dst) s = .next s ∧
     (p.down = false → p.queue ≠ [] → p.since + 10000000 ≤ s.now → runs (.oxsorPathDown src dst) (fun t =>
       (t.oxsor.look (oxsorKey src dst) {}).down = true ∧ (t.oxsor.look (oxsorKey src dst) {}).queue = [] ∧
       ∀ i, i < 48 → (0x44, oxsorKey src dst) ∈ (t.island (src * 48 + i)).notices ∧
         (0x44, oxsorKey src dst) ∈ (t.island (dst * 48 + i)).notices)) ∧
     (p.queue = [] ∨ s.now < p.since + 10000000 → exec (.oxsorPathDown src dst) s = .next s))

/-! Bring-up, life cycle, debugging -/

/-- 21 R420 to R423, R425, R426, 17 R378: a power-on, a reset of the management port and, in mode 0, a hot reset of the host wipe the wafer
and take it through its stages: the safe state with its stage and code where one fails, else the running system with its firmware measured, of which each later stage has verified the next (the stage
bits where one of those does not verify are the model's: log entry 128).
The registers of every tile of the wafer and every byte of its scratchpads are zero afterwards; edge memory and other wafers keep
theirs. -/
def Obligations.ResetsBringTheWaferUp : Prop :=
  ∀ (s : State) (w link : Nat) (st : SelfTest) (i : Instr),
    i = .powerOn w st ∨ i = .managementPortReset w st ∨ (i = .hostHotReset w link st ∧ link < 4 ∧ (s.wafer w).hostrst = false) →
    let k := s.wafer w
    let mapped := (s.wipeWafer w).mapWafer w st
    let sound : Prop := st.serviceOk = true ∧ st.failedIslands.contains 0 = false
    let wiped (t : State) : Prop := (∀ g h, waferOf g = w → (t.thread g h).r = {} ∧ (t.tile g).r = {}) ∧
      (∀ g h, waferOf g ≠ w → (t.thread g h).r = (s.thread g h).r ∧ (t.tile g).r = (s.tile g).r) ∧
      (∀ g off, off < 131072 → g < 2 ^ 26 → t.mem.read (padKey g off) = if waferOf g = w then 0 else s.mem.read (padKey g off)) ∧
      (∀ x pa, t.mem.read (edgeKey x pa) = s.mem.read (edgeKey x pa)) ∧
      (t.wafer w).life = k.life ∧ (t.wafer w).ownerKey = k.ownerKey ∧ (t.wafer w).vendorKey = k.vendorKey ∧ (t.wafer w).fused = k.fused ∧
      (t.wafer w).tokenCount = k.tokenCount
    let safe (stage code : Nat) : Prop := ∃ t, exec i s = .next t ∧ wiped t ∧ (t.wafer w).bootSafe = true ∧ (t.wafer w).bootStep = stage ∧
      (t.wafer w).bootFail = code ∧ (t.wafer w).booted = false
    (st.serviceOk = false → safe 1 1) ∧
    (st.serviceOk = true → st.failedIslands.contains 0 = true → safe 2 2) ∧
    (sound → mapped.inService w = 0 → safe 3 3) ∧
    (sound → mapped.inService w ≠ 0 → k.life = .blank ∨ k.life = .retired → safe 3 0) ∧
    (sound → mapped.inService w ≠ 0 → k.life ≠ .blank → k.life ≠ .retired → (stageOk s w st.firmware = false → safe 4 4) ∧
      (stageOk s w st.firmware = true → ∃ t, exec i s = .next t ∧ wiped t ∧ (t.wafer w).bootSafe = false ∧ (t.wafer w).bootStep = 6 ∧
        (t.wafer w).booted = st.stages.all (stageOk s w) ∧ (t.wafer w).locked = !st.clockEntries.isEmpty ∧ (t.wafer w).gen = 1 ∧
        (t.wafer w).mrs.look 0 0 = Config.shake256 (byteNats 64 0 ++ byteNats 64 (Config.shake256 st.firmware.image)) ∧
        ∀ n x, st.stages.length ≤ 3 → st.stages.all (stageOk s w) = true → st.stages[n]? = some x →
          (t.wafer w).mrs.look (n + 1) 0 = Config.shake256 (byteNats 64 0 ++ byteNats 64 (Config.shake256 x.image))))

/-- 21 R424, R426: a life-cycle transition with a token under the key its state asks for, and a fresher counter, takes effect with the wipe; one
from another state, or without such a token, is ignored. RETURNED erases the owner's key and its digest; a RETIRED wafer stays in the safe
state. A quote signs the nonce, the measurements, the life cycle and the count of quotes; the safe state makes none. -/
def Obligations.LifeCycleNeedsTokens : Prop :=
  ∀ (s : State) (w pa nonce owner vendor : Nat),
    let k := s.wafer w
    let enters (i : Instr) (to_ : LifeState) (count : Nat) : Prop := ∃ t, exec i s = .next t ∧ (t.wafer w).life = to_ ∧
      (t.wafer w).tokenCount = count ∧ (to_ = .retired → (t.wafer w).bootSafe = true ∧ (t.wafer w).booted = false) ∧ (∀ g h, waferOf g = w → (t.thread g h).r = {} ∧ (t.tile g).r = {}) ∧
      (∀ g h, waferOf g ≠ w → (t.thread g h).r = (s.thread g h).r) ∧ (to_ = .returned → (t.wafer w).ownerKey = 0 ∧ (t.wafer w).fused.find 0 = none) ∧
      ∀ x pa, t.mem.read (edgeKey x pa) = s.mem.read (edgeKey x pa)
    let request (i : Instr) (to_ : LifeState) (old : List (LifeState × Nat)) : Prop :=
      (edgeClaimed s w pa 122 = false → ∀ x ∈ old, k.life = x.1 → tokenOk s w pa x.2 to_ = true → enters i to_ (tokenOf s w pa).1) ∧
      (edgeClaimed s w pa 122 = true ∨ (∀ x ∈ old, ¬(k.life = x.1 ∧ tokenOk s w pa x.2 to_ = true)) → exec i s = .next s)
    (k.life = .blank → enters (.lcProvision w owner vendor) .manufacture k.tokenCount ∧
      ∃ t, exec (.lcProvision w owner vendor) s = .next t ∧ (t.wafer w).ownerKey = owner ∧ (t.wafer w).vendorKey = vendor ∧
        (t.wafer w).fused = [(0, Config.shake256 (byteNats 57 owner)), (1, Config.shake256 (byteNats 57 vendor))]) ∧
    (k.life ≠ .blank → exec (.lcProvision w owner vendor) s = .next s) ∧
    request (.lcReqSecured w pa) .secured [(.manufacture, 1), (.debugOpen, 0)] ∧
    request (.lcReqDebugOpen w pa) .debugOpen [(.secured, 0)] ∧
    request (.lcReqReturn w pa) .returned [(.secured, 1), (.debugOpen, 1)] ∧
    request (.lcReqRetired w pa) .retired ([LifeState.blank, .manufacture, .secured, .debugOpen, .returned].flatMap
      (fun l => [(l, 0), (l, 1)])) ∧
    (let body := byteNats 32 nonce ++ ((List.range 8).map (fun n => byteNats 64 (k.mrs.look n 0))).flatten ++ [lcCode k.life] ++
        byteNats 8 (k.quotes + 1)
     (k.bootSafe = true → exec (.attestationQuote w nonce) s = .next s) ∧
     (k.bootSafe = false → ∃ t, exec (.attestationQuote w nonce) s = .next t ∧ t.mem = s.mem ∧ t.tiles = s.tiles ∧
      t.ioRead = Config.ed448Sign (Config.shake256 body) ∧ t.wafer w = { k with quotes := k.quotes + 1, lastQuote := body ++ byteNats 114 t.ioRead }))

/-- 02 R48, R49, 17 R357, R376 to R378: an image that passes the loader's checks leaves its context UNLOADED in the region, on the clusters of its
rectangle that are in service, with its segments'
bytes for the scratchpads, its handler tables and its launch records, and its area headed by the magic number, no byte outside the area
changed; a malformed record is dropped with a report (08 R184); one that fails is only noticed, and one whose area a claim covers waits. A
function-level reset ends the bound
region's context; a hot reset in mode 1 acts on the functions of the link alone, and every island of the wafer has a notice of it. -/
def Obligations.ImagesAndFunctionResets : Prop :=
  ∀ (s : State) (region origin vf link w : Nat) (ports image : List Nat) (st : SelfTest),
    let h := imgHdr image
    let wr := regWafer region
    let own := waferOf s.focus.tile
    let k := s.wafer w
    (imageOk s region origin image = true → edgeClaimed s wr (s.region region).ctxBase (areaSize (imgClusters s wr origin h).length) = true →
      exec (.placementImageLoad region origin ports image) s = .next s) ∧
    (imageOk s region origin image = true → edgeClaimed s wr (s.region region).ctxBase (areaSize (imgClusters s wr origin h).length) = false →
      ∃ t v, exec (.placementImageLoad region origin ports image) s = .next t ∧ (∀ g h, (t.thread g h).r = (s.thread g h).r) ∧
      (∀ g, (t.tile g).r = (s.tile g).r) ∧
      (let base := edgeKey wr (s.region region).ctxBase
       t.mem.readNat base 4 = 0x58544347 ∧
       ∀ k, ¬(base ≤ k ∧ k < base + areaSize (imgClusters s wr origin h).length) → t.mem.read k = s.mem.read k) ∧
      (∀ p, p ∈ (t.region region).ports ↔ p ∈ ports ∧ p < 128) ∧
      (t.region region).ten = 1 ∧ (t.region region).saved = some v ∧ (t.region region).image = v.pads ∧
      (∀ c, c ∈ (t.region region).clusters ↔ (∃ i j, i < h.w ∧ j < h.h ∧ c = wr * 3072 + origin + 48 * j + i) ∧ islandSlot c = false ∧
        (s.cluster c).off = false) ∧
      (∀ x ∈ imgSegs image wr origin h, x.kind ≠ 3 → x.src + x.len ≤ image.length → ∀ j, j < x.len →
        Memory.read v.pads (padKey x.tile (x.off + j)) = BitVec.ofNat 8 (image.getD (x.src + j) 0)) ∧
      (∀ n, n < h.tiles → ∃ y ∈ v.tiles, y.1 = imgTile wr origin (fieldAt image (64 + 16 * n) 2) (fieldAt image (66 + 16 * n) 2) ∧
        y.2.r.lhtbase = fieldAt image (74 + 16 * n) 2 / 512) ∧
      (∀ c ∈ imgClusters s wr origin h, ∃ y ∈ v.clusters, y.1 = c ∧ ∀ n, n < 16 → (y.2.queue n).map (·.tr) =
        ((imgRecs s region (imgLaunches image wr origin h) c).filter (fun x => recQueue x.dw2 == n)).take 240) ∧
      (∀ x ∈ imgLaunches image wr origin h, recBad x.2.2.1 x.2.2.2 = true → (0x60, clusterOf x.1) ∈ (t.island (islandOf x.1)).notices) ∧
      (t.wafer wr).mrs.look 4 0 = Config.shake256 (byteNats 64 ((s.wafer wr).mrs.look 4 0) ++
        byteNats 64 (Config.shake256 (image.take (if h.sig then h.len - 192 else h.len))))) ∧
    (imageOk s region origin image = false → ∃ t, exec (.placementImageLoad region origin ports image) s = .next t ∧ Same s t ∧
      t.regions = s.regions ∧ (0x71, region) ∈ (t.island (s.policing region (wr * 48))).notices) ∧
    (boundRegion s own vf = none → exec (.vfReset vf) s = .next s) ∧
    (∀ r, boundRegion s own vf = some r →
      ((s.region r).ten = 3 → ∃ t, exec (.vfReset vf) s = .next t ∧ ((t.region r).ten = 6 ∨ (t.region r).ten = 0)) ∧
      ((s.region r).ten = 1 → ∃ t, exec (.vfReset vf) s = .next t ∧ (t.region r).ten = 0 ∧ (t.region r).saved = none ∧ (t.region r).files = []) ∧
      ((s.region r).ten = 2 → ∃ t, exec (.vfReset vf) s = .next t ∧ (t.region r).ten = 2 ∧ (t.region r).endAfterLoad = true)) ∧
    (4 ≤ link → exec (.hostHotReset w link st) s = .next s) ∧
    (link < 4 → (s.wafer w).hostrst = true → (∀ v, v < 64 → k.vfLink.look v 0 = link → boundRegion s w v = none) →
      ∃ t, exec (.hostHotReset w link st) s = .next t ∧ Same s t ∧ t.regions = s.regions ∧
        ∀ i, i < 48 → (0x76, link) ∈ (t.island (w * 48 + i)).notices)

/-- 04 R75, 21 R427, R428: debugging. EN is set only with the tenant's grant or in DEBUG_OPEN, and measured; HALT stops every thread of the
region between two instructions, the landing threads between their handlers, until each is resumed; a halted thread runs one instruction, or goes on, past its own `ebreak` unless its pc was written; a
breakpoint halts its thread before the word. Without EN nothing happens. -/
def Obligations.DebuggersStopAndStep : Prop :=
  ∀ (s : State) (region : Nat),
    let q := s.region region
    let g := s.focus.tile
    let h := s.focus.thread
    let d := s.me.run.dbg
    let passed : Regs := if d.atEbreak = true ∧ d.pcWritten = false then { s.me.r with pc := pcWith s.me.r.pc (pcOff s.me.r.pc + 4) } else s.me.r
    let free : Prop := s.me.run.stop = {} ∧ (s.myTile.c.reps.look 0 {}).v = false ∧ (s.myTile.c.reps.look 1 {}).v = false
    ((s.wafer (regWafer region)).bootSafe = false → q.dbgEn = false → dbgMay s region = true → ∃ t, exec (.dbgEnSet region) s = .next t ∧ t.mem = s.mem ∧ t.tiles = s.tiles ∧
      (t.region region).dbgEn = true ∧ (t.wafer (regWafer region)).mrs.look 5 0 =
        Config.shake256 (byteNats 64 ((s.wafer (regWafer region)).mrs.look 5 0) ++ byteNats 64 (regId region))) ∧
    ((s.wafer (regWafer region)).bootSafe = true ∨ q.dbgEn = true ∨ dbgMay s region = false → exec (.dbgEnSet region) s = .next s) ∧
    (∃ t, exec (.dbgEnClear region) s = .next t ∧ t.mem = s.mem ∧ (t.region region).dbgEn = false ∧ (∀ g, (t.tile g).r = (s.tile g).r) ∧
      (∀ g ∈ s.regionTiles region, (t.tile g).c.brk = []) ∧
      ∀ g h, (s.thread g h).run.dbg.halted = false → (t.thread g h).r = (s.thread g h).r) ∧
    (q.dbgEn = true → (∀ g ∈ s.regionTiles region, ∀ h, h < 2 → (s.thread g h).run.clear) → ∃ t, exec (.dbgHalt region) s = .next t ∧
      Same s t ∧ (t.region region).landHalt = true ∧ (t.region region).landFree = [] ∧
      ∀ g ∈ s.regionTiles region, ∀ h, h < 2 → (s.thread g h).run.ts ≠ .idle → s.midway g h = false → (s.thread g h).run.dbg.halted = false →
      (t.thread g h).run.ts = .stopped ∧ (t.thread g h).run.dbg.halted = true) ∧
    (q.dbgEn = false → exec (.dbgHalt region) s = .next s) ∧
    (∃ t, exec (.dbgGrant region true) s = .next t ∧ Same s t ∧ (t.region region).dbgAllowed = true) ∧
    (q.dbgEn = false → ∃ t, exec (.dbgGrant region false) s = .next t ∧ Same s t ∧ (t.region region).dbgAllowed = false) ∧
    (d.halted = true → free → s.me.run.ts = .stopped → s.me.run.heldTs = .running →
      ((s.region (s.regionOf g)).dbgEn = true → ∃ t, exec .debugSingleStep s = .next t ∧ Wrote s t g h passed ∧ t.me.run.ts = .running ∧
        t.me.run.dbg.stepping = true) ∧
      (h ≤ 1 → s.me.run.failed = false → s.myTile.c.dead = false → s.myTile.c.hole = false → ∃ t, exec .debugResume s = .next t ∧ Wrote s t g h passed ∧ t.me.run.ts = .running ∧ t.me.run.dbg.halted = false)) ∧
    (d.halted = false → exec .debugSingleStep s = .next s ∧ (h ≠ 2 → exec .debugResume s = .next s)) ∧
    (h = 2 → ∃ t, exec .debugResume s = .next t ∧ Same s t ∧ ∀ x, t.landHalted x = true ↔ (s.landHalted x = true ∧ x ≠ g)) ∧
    (atBreakpoint s g h = true → s.me.run.ts = .running → s.midway g h = false → s.me.run.clear → d.halted = false →
      ∃ t, exec .breakpointHalt s = .next t ∧ Same s t ∧ t.me.run.ts = .stopped ∧ t.me.run.dbg.halted = true) ∧
    (atBreakpoint s g h = false → exec .breakpointHalt s = .next s)

/-! Issue, classes, decoding, memory, reset -/

/-- 01 R4, R5, 02 R28, 15 R326, 16 R339: a word that is no instruction traps with cause 0x02, and so does every instruction of a class that
its thread does not execute: a t0 instruction on t1, a landing instruction on t0 or t1. The report holds the word; nothing else of
the instruction takes effect. -/
def Obligations.IllegalInstructionsTrap : Prop :=
  ∀ (s : State) (word : Nat), s.canTrap →
    (∃ t, exec (.illegalInstruction word) s = .next t ∧ Trapped { s with focus := { s.focus with word := word } } t 0x02 0 0) ∧
    ∀ i, isEvent i = false → (∀ w, i ≠ .illegalInstruction w) → classAllows s.focus.thread i = false →
      (∀ c, i ≠ .csrAccess c ∧ i ≠ .errwordRead c ∧ i ≠ .fxflagsAccess c ∧ i ≠ .qwdomainWrite c ∧ i ≠ .qbindCsrWrite c) →
      ∃ t, exec i s = .next t ∧ Trapped s t 0x02 0 0

/-- 01 R13, R18 to R22, R26, 04 R86, 09 R224: a step of the machine executes one instruction. With no other move before it, the thread in
focus, when it runs and nothing holds its issue, executes the instruction that its fetched word decodes to, in the state that holds the word;
the word of its repeat, or that its leader has forwarded, instead where it has one. A word that does not decode is the illegal instruction; a
pc past the scratchpad traps with cause 0x01. The next move of the agenda is taken before. A register that is read over the system path gives
its value (12 R269). (That the order of moves stands in the state as an agenda, the moves of the hardware and the host among them, and the
note of which answered reads an instruction's operands rest on, are the model's: log entries 4 and 86.) -/
def Obligations.StepRunsTheDecodedInstruction : Prop :=
  ∀ (s : State) (rest : List Move),
    let g := s.focus.tile
    let h := s.focus.thread
    let off := pcOff s.me.r.pc
    let w := s.mem.readNat (padKey g off) 4
    let plain : Prop := s.agenda = [] ∧ s.me.run.ts = .running ∧ s.heldForStop g h = false ∧ s.replaying g h = false ∧ s.me.run.gather.role ≠ .leader ∧
      (h = 2 → s.me.r.instret < 4096) ∧ atBreakpoint s g h = false
    let runs (w : Nat) : Prop :=
      let s' := { s with focus := { s.focus with word := w } }
      (∀ i, decode w = .ok i → s.me.interlocked i = false → step s = exec i (if s.me.run.seen.isEmpty then s' else
        s'.modMe (fun t => t.modRun (·.dependOn (regsUsed i))))) ∧
      (∀ i, decode w = .ok i → s.me.interlocked i = true → step s = .next s') ∧
      (∀ x, decode w = .reject x → step s = exec (.illegalInstruction w) s')
    (plain → s.me.run.rep = none → s.me.run.gather.role ≠ .attached → off < 131072 → poisonedAt s g off 4 = false →
      s.me.run.stale.look (off / 4) [] = [] → runs w) ∧
    (plain → s.me.run.rep = none → s.me.run.gather.role ≠ .attached → 131072 ≤ off → h ≤ 1 → s.midway g h = false →
      ∃ t, step s = .next t ∧ Trapped { s with focus := { s.focus with word := 0 } } t 0x01 0 s.me.r.pc.toNat) ∧
    (∀ q, plain → s.me.run.rep = some q → runs q.word) ∧
    (∀ x buf, plain → s.me.run.rep = none → s.me.run.gather.role = .attached → h = 0 → s.me.run.gather.buf = x :: buf → runs x.word) ∧
    (s.agenda = [] → s.me.run.ts ≠ .running → step s = .next s) ∧
    (∀ g' h', s.agenda = .run g' h' :: rest → step s = runFocus ({ s with agenda := rest }.lookAt g' h')) ∧
    (∀ g' h' i, s.agenda = .event g' h' i :: rest → isEvent i = true → step s = exec i ({ s with agenda := rest }.lookAt g' h')) ∧
    (∀ ns, s.agenda = .elapse ns :: rest → ∃ t, step s = .next t ∧ t.mem = s.mem ∧ (∀ g h, (t.thread g h).r = (s.thread g h).r) ∧
      t.now = (s.now + ns) % 2 ^ 64) ∧
    (∀ x n, s.agenda = .drop x n :: rest → ∃ t, step s = .next t ∧ Same { s with agenda := rest } t ∧
      (t.tile x).e.xlat = (s.tile x).e.xlat.eraseIdx n) ∧
    (∀ x, s.agenda = .corrected x :: rest → ∃ t, step s = .next t ∧ Same { s with agenda := rest } t ∧
      (t.tile x).c.corrected = (s.tile x).c.corrected + 1) ∧
    (∀ x, s.agenda = .islandCorrected x :: rest → ∃ t, step s = .next t ∧ Same { s with agenda := rest } t ∧
      (t.island x).corrected = (s.island x).corrected + 1) ∧
    (∀ x, s.agenda = .read x :: rest → (systemRead { s with agenda := rest } x = none → step s = .next { s with agenda := rest }) ∧
      ∀ v, systemRead { s with agenda := rest } x = some v → ∃ t, step s = .next t ∧ Same { s with agenda := rest } t ∧ t.ioRead = v) ∧
    (∀ w r l, s.agenda = .hostRange w r l :: rest → ∃ t, step s = .next t ∧ t.tiles = s.tiles ∧ t.mem = s.mem ∧
      (r = none → (t.wafer w).hostWin = l) ∧ ∀ n, r = some n → (t.region (w * 256 + n % 256)).hostWin = l) ∧
    (∀ w v l, s.agenda = .assignVf w v l :: rest → v < 64 → l < 4 → ∃ t, step s = .next t ∧ t.tiles = s.tiles ∧ t.mem = s.mem ∧
      (t.wafer w).vfLink.look v 0 = l) ∧
    (∀ w f off n d, s.agenda = .mailbox w f off n d :: rest → ∃ t, step s = .next t ∧ t.tiles = s.tiles ∧ t.mem = s.mem)

/-- 02 R29 to R40: decoding inverts encoding. The word of every well-formed instruction that has an encoding decodes to it, with every operand
at every value that the encoding admits. -/
def Obligations.DecodingInvertsEncoding : Prop :=
  ∀ (i : Instr) (r : Raw), wellFormed i = true → encodeRaw i = some r → wordOfRaw r < 2 ^ 32 ∧ decode (wordOfRaw r) = .ok i

/-- 02 R30 to R39: worked words of the spec (chapters 11 and 22) and words written out from the formats decode to the instructions they stand
for, one of each family; a compressed word, an unallocated code and a reserved field are rejected by name. -/
def Obligations.WordsOfTheSpecDecode : Prop :=
  decode 0x009D210B = .ok (.send ⟨false, 2, 26, 9⟩) ∧ decode 0x021D210B = .ok (.sendv ⟨false, 2, 26, 1⟩) ∧
  decode 0x2804148B = .ok (.mmov ⟨false, false, true, false, 9, 8, 0⟩) ∧ decode 0x8600308B = .ok (.qpopv ⟨true, 1, 0, 0⟩) ∧
  decode 0x0372802B = .ok (.spawnt ⟨false, 0, 5, 23⟩) ∧ decode 0x0204C00B = .ok (.slotwait ⟨false, 0, 9, 0⟩) ∧
  decode 0x5050B25B = .ok (.vfma ⟨false, 5, 0, 5, 1, 4⟩) ∧ decode 0x2062827B = .ok (.mmaE4e4 ⟨false, 8, 6, 5, false, false, true, 0⟩) ∧
  decode 0x0217207B = .ok (.maccSt ⟨false, 0, 14, 1⟩) ∧ decode 0x00A00093 = .ok (.integerOp .addi 1 0 0 10) ∧
  decode 0x00000001 = .reject .compressed ∧ decode 0x0600000B ≠ decode 0x0000000B ∧ decode 0x0000500F = .reject .unallocated ∧
  decode 0x009D260B = .reject .fieldLimit

/-- 00 R2, 01 R17, R27: every step keeps memory in its canonical form: keys strictly rising and no byte that an unlisted key reads as. -/
def Obligations.MemoryStaysCanonical : Prop := ∀ s t : State, memOk s → step s = .next t → memOk t

/-- 01 R7, R27, 21 R420: after reset the x, f, v and p registers and the accumulators of every thread and tile are zero but for p0, whose bits are all 1; the
flags are clear and no weight is held; every thread is IDLE, the time base is 0, and every byte of memory reads zero. The pc, the generator and the seed after reset are the model's choice (log entry 1). -/
def Obligations.ResetLeavesEverythingZero : Prop :=
  memOk State.reset ∧ (∀ a, State.reset.mem.read a = 0) ∧ State.reset.now = 0 ∧ ∀ g h, (State.reset.thread g h).run.ts = .idle ∧
    (∀ n, (State.reset.thread g h).r.getX n = 0 ∧ (State.reset.thread g h).r.getF n = 0 ∧ (State.reset.tile g).r.getV n = 0 ∧
      (State.reset.tile g).r.getP n = (if n = 0 then BitVec.allOnes 64 else 0) ∧ ∀ i j, (State.reset.tile g).r.getAcc n i j = (0, 0)) ∧
    (State.reset.thread g h).r.fflags = 0 ∧ (State.reset.thread g h).r.fxflags = 0 ∧ (State.reset.thread g h).r.weight = 0
end

