-- ==== Sys2Proof/Laws/Memory.lean ====
section
/-!
SUPPORT. Memory: a read after a write, and the canonical form, which every operation keeps.

The canonical form is handled as a predicate on lists, `rising`: every key of the tail lies above the head's key. `wf_iff` links
it with the definition.
-/
namespace Sys2Proof.Machine

/-! The canonical form -/

theorem Memory.wf_cons (c : Host.Cell) (m : Memory) :
    Memory.wf (c :: m) = true ↔ (c.2 ≠ blankByte ∧ (∀ d ∈ m, c.1 < d.1) ∧ Memory.wf m = true) := by
  induction m generalizing c with
  | nil => simp [Memory.wf]
  | cons d r ih =>
    have h : Memory.wf (c :: d :: r) = (c.2 != blankByte && decide (c.1 < d.1) && Memory.wf (d :: r)) := rfl
    rw [h]
    simp only [Bool.and_eq_true, bne_iff_ne, ne_eq, decide_eq_true_eq, List.mem_cons, forall_eq_or_imp]
    constructor
    · rintro ⟨⟨h1, h2⟩, h3⟩
      refine ⟨h1, ⟨h2, fun x hx => ?_⟩, h3⟩
      have := ((ih d).1 h3).2.1 x hx
      omega
    · rintro ⟨h1, ⟨h2, -⟩, h3⟩; exact ⟨⟨h1, h2⟩, h3⟩

theorem Memory.wf_nil : Memory.wf [] = true := rfl

theorem Memory.wf_filter (m : Memory) (p : Host.Cell → Bool) (h : m.wf = true) : Memory.wf (m.filter p) = true := by
  induction m with
  | nil => rfl
  | cons c r ih =>
    obtain ⟨h1, h2, h3⟩ := (wf_cons c r).1 h
    simp only [List.filter]
    split
    · exact (wf_cons _ _).2 ⟨h1, fun d hd => h2 d (List.mem_filter.1 hd).1, ih h3⟩
    · exact ih h3

theorem Memory.mem_insert (m : Memory) (a : Nat) (b : Byte) (d : Host.Cell) :
    d ∈ Memory.insert m a b ↔ d = (a, b) ∨ d ∈ m := by
  induction m with
  | nil => simp [Memory.insert]
  | cons c r ih =>
    simp only [Memory.insert]
    split
    · simp
    · simp only [List.mem_cons, ih]
      constructor
      · rintro (h | h | h)
        · exact .inr (.inl h)
        · exact .inl h
        · exact .inr (.inr h)
      · rintro (h | h | h)
        · exact .inr (.inl h)
        · exact .inl h
        · exact .inr (.inr h)

theorem Memory.wf_insert (m : Memory) (a : Nat) (b : Byte) (h : m.wf = true) (ha : ∀ c ∈ m, c.1 ≠ a) (hb : b ≠ blankByte) :
    Memory.wf (Memory.insert m a b) = true := by
  induction m with
  | nil => simp [Memory.insert, Memory.wf, hb]
  | cons c r ih =>
    obtain ⟨h1, h2, h3⟩ := (wf_cons c r).1 h
    have hc := ha c (List.mem_cons_self ..)
    simp only [Memory.insert]
    split
    · rename_i hlt
      refine (wf_cons _ _).2 ⟨hb, fun d hd => ?_, h⟩
      simp only [List.mem_cons] at hd
      rcases hd with rfl | hd
      · exact hlt
      · have := h2 d hd; simp only at *; omega
    · refine (wf_cons _ _).2 ⟨h1, fun d hd => ?_, ih h3 (fun d hd => ha d (List.mem_cons_of_mem _ hd))⟩
      rcases (mem_insert r a b d).1 hd with rfl | hd
      · simp only at *; omega
      · exact h2 d hd

theorem Memory.wf_write (m : Memory) (a : Nat) (b : Byte) (h : m.wf = true) : (m.write a b).wf = true := by
  unfold Memory.write
  simp only
  split
  · exact wf_filter _ _ h
  · exact wf_insert _ _ _ (wf_filter _ _ h) (fun c hc => by simpa using (List.mem_filter.1 hc).2) ‹_›

theorem Memory.wf_writeBytes (bs : List Byte) (m : Memory) (a : Nat) (h : m.wf = true) : (m.writeBytes a bs).wf = true := by
  induction bs generalizing m a with
  | nil => exact h
  | cons b r ih => exact ih _ _ (wf_write m a b h)

theorem Memory.wf_writeNat (m : Memory) (a n v : Nat) (h : m.wf = true) : (m.writeNat a n v).wf = true := wf_writeBytes _ _ _ h

theorem Memory.wf_wipe (m : Memory) (a n : Nat) (h : m.wf = true) : (m.wipe a n).wf = true := wf_filter _ _ h

/-- Cells written one after another. -/
theorem Memory.wf_writeAll (cs : List Host.Cell) (m : Memory) (h : m.wf = true) :
    (cs.foldl (fun m c => m.write c.1 c.2) m).wf = true := by
  induction cs generalizing m with
  | nil => exact h
  | cons c r ih => exact ih _ (wf_write m c.1 c.2 h)

/-! Reading -/

@[simp] theorem Memory.read_nil (a : Nat) : Memory.read [] a = blankByte := rfl

theorem Memory.read_filter (m : Memory) (p : Nat → Bool) (a : Nat) :
    Memory.read (m.filter (fun c => p c.1)) a = if p a then m.read a else blankByte := by
  induction m with
  | nil => simp [Memory.read]
  | cons c r ih =>
    obtain ⟨j, b⟩ := c
    simp only [List.filter]
    split
    · rename_i hp
      simp only [Memory.read, ih]
      split
      · subst_vars; simp_all
      · rfl
    · rename_i hp
      rw [ih]
      simp only [Memory.read]
      split
      · rename_i hpa
        split
        · subst_vars; simp_all
        · rfl
      · rfl

theorem Memory.read_insert (m : Memory) (a : Nat) (b : Byte) (k : Nat) (h : ∀ c ∈ m, c.1 ≠ a) :
    Memory.read (Memory.insert m a b) k = if a = k then b else m.read k := by
  induction m with
  | nil => simp [Memory.insert, Memory.read]
  | cons c r ih =>
    obtain ⟨j, d⟩ := c
    have hj := h (j, d) (List.mem_cons_self ..)
    simp only [Memory.insert]
    split
    · simp [Memory.read]
    · simp only [Memory.read, ih (fun c hc => h c (List.mem_cons_of_mem _ hc))]
      by_cases hk : j = k
      · simp only [hk, if_true]; rw [if_neg]; simp only at hj; omega
      · simp [hk]

/-- A read after a write: the byte written, and every other byte as before. -/
theorem Memory.read_write (m : Memory) (a k : Nat) (b : Byte) : (m.write a b).read k = if a = k then b else m.read k := by
  have hf := read_filter m (fun j => j != a) k
  unfold Memory.write
  simp only
  split
  · rename_i hb
    rw [hf]
    by_cases h : a = k
    · subst h; simp [hb]
    · have : (k != a) = true := by simp; omega
      simp [this, h]
  · rw [read_insert _ _ _ _ (fun c hc => by simpa using (List.mem_filter.1 hc).2), hf]
    by_cases h : a = k
    · simp [h]
    · have : (k != a) = true := by simp; omega
      simp [this, h]

theorem Memory.read_writeBytes (bs : List Byte) (m : Memory) (a k : Nat) :
    (m.writeBytes a bs).read k = if a ≤ k ∧ k < a + bs.length then bs.getD (k - a) 0 else m.read k := by
  induction bs generalizing m a with
  | nil => simp only [Memory.writeBytes, List.length_nil]; rw [if_neg (by omega)]
  | cons b r ih =>
    simp only [Memory.writeBytes, ih, read_write, List.length_cons]
    by_cases h : a = k
    · subst h
      rw [if_neg (by omega), if_pos rfl, if_pos (by omega)]
      simp
    · rw [if_neg h]
      by_cases h2 : a + 1 ≤ k ∧ k < a + 1 + r.length
      · rw [if_pos h2, if_pos (by omega)]
        have : k - a = (k - (a + 1)) + 1 := by omega
        rw [this]; simp
      · rw [if_neg h2, if_neg (by omega)]

theorem Memory.read_wipe (m : Memory) (a n k : Nat) :
    (m.wipe a n).read k = if a ≤ k ∧ k < a + n then blankByte else m.read k := by
  have := read_filter m (fun j => !(decide (a ≤ j) && decide (j < a + n))) k
  unfold Memory.wipe
  rw [this]
  by_cases h : a ≤ k ∧ k < a + n <;> simp [h]

/-- Bytes outside a store read as before. -/
theorem Memory.read_writeBytes_other (bs : List Byte) (m : Memory) (a k : Nat) (h : ¬(a ≤ k ∧ k < a + bs.length)) :
    (m.writeBytes a bs).read k = m.read k := by simp [read_writeBytes, h]

theorem natBytes_length (n v : Nat) : (natBytes n v).length = n := by
  induction n generalizing v with
  | zero => rfl
  | succ n ih => simp [natBytes, ih]

theorem bytesNat_natBytes (n v : Nat) : bytesNat (natBytes n v) = v % 256 ^ n := by
  induction n generalizing v with
  | zero => simp [natBytes, bytesNat, Nat.mod_one]
  | succ n ih =>
    simp only [natBytes, bytesNat, ih, BitVec.toNat_ofNat]
    have h : v % 256 ^ (n + 1) = v % 256 + 256 * (v / 256 % 256 ^ n) := by
      rw [Nat.pow_succ, Nat.mul_comm (256 ^ n) 256, Nat.mod_mul]
    rw [h]

theorem Memory.readBytes_writeBytes (bs : List Byte) (m : Memory) (a : Nat) :
    (m.writeBytes a bs).readBytes a bs.length = bs := by
  apply List.ext_getElem
  · simp [Memory.readBytes]
  · intro i h1 h2
    simp only [Memory.readBytes, List.getElem_map, List.getElem_range, read_writeBytes]
    rw [if_pos (by omega)]
    simp [List.getD, h2]

/-- A number written and read back in the same width. -/
theorem Memory.readNat_writeNat (m : Memory) (a n v : Nat) : (m.writeNat a n v).readNat a n = v % 256 ^ n := by
  have h := readBytes_writeBytes (natBytes n v) m a
  rw [natBytes_length] at h
  rw [Memory.readNat, Memory.writeNat, h, bytesNat_natBytes]

end Sys2Proof.Machine
end

