-- ==== Sys2Proof/Laws/Tab.lean ====
section
/-!
SUPPORT. Sparse tables: a read after a write gives the value written, a write leaves every other key alone. Both hold for every
list, sorted or not.
-/
namespace Sys2Proof.Machine

@[simp] theorem Tab.look_nil {α : Type} (k : Nat) (d : α) : Tab.look ([] : Tab α) k d = d := rfl

theorem Tab.look_put {α : Type} (t : Tab α) (k j : Nat) (v d : α) :
    (t.put k v).look j d = if k = j then v else t.look j d := by
  induction t with
  | nil => simp [Tab.put, Tab.look]
  | cons p r ih =>
    obtain ⟨i, w⟩ := p
    simp only [Tab.put]
    split
    · simp [Tab.look]
    · split
      · subst_vars; simp only [Tab.look]; split <;> rfl
      · simp only [Tab.look, ih]
        by_cases h : i = j
        · simp only [h, if_true]; rw [if_neg]; omega
        · simp [h]

@[simp] theorem Tab.look_put_self {α : Type} (t : Tab α) (k : Nat) (v d : α) : (t.put k v).look k d = v := by
  simp [Tab.look_put]

theorem Tab.look_put_other {α : Type} (t : Tab α) (k j : Nat) (v d : α) (h : k ≠ j) : (t.put k v).look j d = t.look j d := by
  simp [Tab.look_put, h]

theorem Tab.look_map {α β : Type} (t : Tab α) (f : α → β) (k : Nat) (d : α) (e : β) (h : f d = e) :
    Tab.look (t.map (fun p => (p.1, f p.2))) k e = f (t.look k d) := by
  induction t with
  | nil => simp [Tab.look, h]
  | cons p r ih => obtain ⟨i, w⟩ := p; simp only [List.map, Tab.look, ih]; split <;> rfl

/-- Mapping a table by a function of key and thing that leaves the default alone. -/
theorem Tab.look_mapIdx {α β : Type} (t : Tab α) (f : Nat → α → β) (k : Nat) (d : α) (e : β) (h : f k d = e) :
    Tab.look (t.map (fun p => (p.1, f p.1 p.2))) k e = f k (t.look k d) := by
  induction t with
  | nil => simp [Tab.look, h]
  | cons p r ih =>
    obtain ⟨i, w⟩ := p; simp only [List.map, Tab.look, ih]
    split
    · subst_vars; rfl
    · rfl

end Sys2Proof.Machine
end

