-- ==== Sys2Proof/Laws/State.lean ====
section
/-!
SUPPORT. The accessors of the state: what one update leaves of each field, true by unfolding, and the reading of an entity after an
update of one.
-/
set_option Elab.async false

namespace Sys2Proof.Machine

@[simp] theorem State.modTile_mem (s : State) (k : Nat) (f : Tile → Tile) : (s.modTile k f).mem = s.mem := rfl
@[simp] theorem State.modTile_homes (s : State) (k : Nat) (f : Tile → Tile) : (s.modTile k f).homes = s.homes := rfl
@[simp] theorem State.modTile_clusters (s : State) (k : Nat) (f : Tile → Tile) : (s.modTile k f).clusters = s.clusters := rfl
@[simp] theorem State.modTile_islands (s : State) (k : Nat) (f : Tile → Tile) : (s.modTile k f).islands = s.islands := rfl
@[simp] theorem State.modTile_regions (s : State) (k : Nat) (f : Tile → Tile) : (s.modTile k f).regions = s.regions := rfl
@[simp] theorem State.modTile_wafers (s : State) (k : Nat) (f : Tile → Tile) : (s.modTile k f).wafers = s.wafers := rfl
@[simp] theorem State.modTile_oxsor (s : State) (k : Nat) (f : Tile → Tile) : (s.modTile k f).oxsor = s.oxsor := rfl
@[simp] theorem State.modTile_now (s : State) (k : Nat) (f : Tile → Tile) : (s.modTile k f).now = s.now := rfl
@[simp] theorem State.modTile_focus (s : State) (k : Nat) (f : Tile → Tile) : (s.modTile k f).focus = s.focus := rfl
@[simp] theorem State.modTile_agenda (s : State) (k : Nat) (f : Tile → Tile) : (s.modTile k f).agenda = s.agenda := rfl
@[simp] theorem State.modTile_fresh (s : State) (k : Nat) (f : Tile → Tile) : (s.modTile k f).fresh = s.fresh := rfl
@[simp] theorem State.modTile_perf (s : State) (k : Nat) (f : Tile → Tile) : (s.modTile k f).perf = s.perf := rfl
@[simp] theorem State.modTile_wrote (s : State) (k : Nat) (f : Tile → Tile) : (s.modTile k f).wrote = s.wrote := rfl
@[simp] theorem State.modTile_olds (s : State) (k : Nat) (f : Tile → Tile) : (s.modTile k f).olds = s.olds := rfl
@[simp] theorem State.modTile_ioRead (s : State) (k : Nat) (f : Tile → Tile) : (s.modTile k f).ioRead = s.ioRead := rfl
theorem State.tile_modTile (s : State) (k j : Nat) (f : Tile → Tile) :
    (s.modTile k f).tile j = if k = j then f (s.tile k) else s.tile j := by
  simp only [State.tile, State.modTile, Tab.look_put]
@[simp] theorem State.tile_modTile_self (s : State) (k : Nat) (f : Tile → Tile) : (s.modTile k f).tile k = f (s.tile k) := by
  simp [State.tile_modTile]
@[simp] theorem State.home_modTile (s : State) (k j : Nat) (f : Tile → Tile) : (s.modTile k f).home j = s.home j := rfl
@[simp] theorem State.cluster_modTile (s : State) (k j : Nat) (f : Tile → Tile) : (s.modTile k f).cluster j = s.cluster j := rfl
@[simp] theorem State.island_modTile (s : State) (k j : Nat) (f : Tile → Tile) : (s.modTile k f).island j = s.island j := rfl
@[simp] theorem State.region_modTile (s : State) (k j : Nat) (f : Tile → Tile) : (s.modTile k f).region j = s.region j := rfl
@[simp] theorem State.wafer_modTile (s : State) (k j : Nat) (f : Tile → Tile) : (s.modTile k f).wafer j = s.wafer j := rfl
@[simp] theorem State.modHome_mem (s : State) (k : Nat) (f : HomeSt → HomeSt) : (s.modHome k f).mem = s.mem := rfl
@[simp] theorem State.modHome_tiles (s : State) (k : Nat) (f : HomeSt → HomeSt) : (s.modHome k f).tiles = s.tiles := rfl
@[simp] theorem State.modHome_clusters (s : State) (k : Nat) (f : HomeSt → HomeSt) : (s.modHome k f).clusters = s.clusters := rfl
@[simp] theorem State.modHome_islands (s : State) (k : Nat) (f : HomeSt → HomeSt) : (s.modHome k f).islands = s.islands := rfl
@[simp] theorem State.modHome_regions (s : State) (k : Nat) (f : HomeSt → HomeSt) : (s.modHome k f).regions = s.regions := rfl
@[simp] theorem State.modHome_wafers (s : State) (k : Nat) (f : HomeSt → HomeSt) : (s.modHome k f).wafers = s.wafers := rfl
@[simp] theorem State.modHome_oxsor (s : State) (k : Nat) (f : HomeSt → HomeSt) : (s.modHome k f).oxsor = s.oxsor := rfl
@[simp] theorem State.modHome_now (s : State) (k : Nat) (f : HomeSt → HomeSt) : (s.modHome k f).now = s.now := rfl
@[simp] theorem State.modHome_focus (s : State) (k : Nat) (f : HomeSt → HomeSt) : (s.modHome k f).focus = s.focus := rfl
@[simp] theorem State.modHome_agenda (s : State) (k : Nat) (f : HomeSt → HomeSt) : (s.modHome k f).agenda = s.agenda := rfl
@[simp] theorem State.modHome_fresh (s : State) (k : Nat) (f : HomeSt → HomeSt) : (s.modHome k f).fresh = s.fresh := rfl
@[simp] theorem State.modHome_perf (s : State) (k : Nat) (f : HomeSt → HomeSt) : (s.modHome k f).perf = s.perf := rfl
@[simp] theorem State.modHome_wrote (s : State) (k : Nat) (f : HomeSt → HomeSt) : (s.modHome k f).wrote = s.wrote := rfl
@[simp] theorem State.modHome_olds (s : State) (k : Nat) (f : HomeSt → HomeSt) : (s.modHome k f).olds = s.olds := rfl
@[simp] theorem State.modHome_ioRead (s : State) (k : Nat) (f : HomeSt → HomeSt) : (s.modHome k f).ioRead = s.ioRead := rfl
theorem State.home_modHome (s : State) (k j : Nat) (f : HomeSt → HomeSt) :
    (s.modHome k f).home j = if k = j then f (s.home k) else s.home j := by
  simp only [State.home, State.modHome, Tab.look_put]
@[simp] theorem State.home_modHome_self (s : State) (k : Nat) (f : HomeSt → HomeSt) : (s.modHome k f).home k = f (s.home k) := by
  simp [State.home_modHome]
@[simp] theorem State.tile_modHome (s : State) (k j : Nat) (f : HomeSt → HomeSt) : (s.modHome k f).tile j = s.tile j := rfl
@[simp] theorem State.cluster_modHome (s : State) (k j : Nat) (f : HomeSt → HomeSt) : (s.modHome k f).cluster j = s.cluster j := rfl
@[simp] theorem State.island_modHome (s : State) (k j : Nat) (f : HomeSt → HomeSt) : (s.modHome k f).island j = s.island j := rfl
@[simp] theorem State.region_modHome (s : State) (k j : Nat) (f : HomeSt → HomeSt) : (s.modHome k f).region j = s.region j := rfl
@[simp] theorem State.wafer_modHome (s : State) (k j : Nat) (f : HomeSt → HomeSt) : (s.modHome k f).wafer j = s.wafer j := rfl
@[simp] theorem State.thread_modHome (s : State) (k g h : Nat) (f : HomeSt → HomeSt) : (s.modHome k f).thread g h = s.thread g h := rfl
@[simp] theorem State.modCluster_mem (s : State) (k : Nat) (f : Cluster → Cluster) : (s.modCluster k f).mem = s.mem := rfl
@[simp] theorem State.modCluster_tiles (s : State) (k : Nat) (f : Cluster → Cluster) : (s.modCluster k f).tiles = s.tiles := rfl
@[simp] theorem State.modCluster_homes (s : State) (k : Nat) (f : Cluster → Cluster) : (s.modCluster k f).homes = s.homes := rfl
@[simp] theorem State.modCluster_islands (s : State) (k : Nat) (f : Cluster → Cluster) : (s.modCluster k f).islands = s.islands := rfl
@[simp] theorem State.modCluster_regions (s : State) (k : Nat) (f : Cluster → Cluster) : (s.modCluster k f).regions = s.regions := rfl
@[simp] theorem State.modCluster_wafers (s : State) (k : Nat) (f : Cluster → Cluster) : (s.modCluster k f).wafers = s.wafers := rfl
@[simp] theorem State.modCluster_oxsor (s : State) (k : Nat) (f : Cluster → Cluster) : (s.modCluster k f).oxsor = s.oxsor := rfl
@[simp] theorem State.modCluster_now (s : State) (k : Nat) (f : Cluster → Cluster) : (s.modCluster k f).now = s.now := rfl
@[simp] theorem State.modCluster_focus (s : State) (k : Nat) (f : Cluster → Cluster) : (s.modCluster k f).focus = s.focus := rfl
@[simp] theorem State.modCluster_agenda (s : State) (k : Nat) (f : Cluster → Cluster) : (s.modCluster k f).agenda = s.agenda := rfl
@[simp] theorem State.modCluster_fresh (s : State) (k : Nat) (f : Cluster → Cluster) : (s.modCluster k f).fresh = s.fresh := rfl
@[simp] theorem State.modCluster_perf (s : State) (k : Nat) (f : Cluster → Cluster) : (s.modCluster k f).perf = s.perf := rfl
@[simp] theorem State.modCluster_wrote (s : State) (k : Nat) (f : Cluster → Cluster) : (s.modCluster k f).wrote = s.wrote := rfl
@[simp] theorem State.modCluster_olds (s : State) (k : Nat) (f : Cluster → Cluster) : (s.modCluster k f).olds = s.olds := rfl
@[simp] theorem State.modCluster_ioRead (s : State) (k : Nat) (f : Cluster → Cluster) : (s.modCluster k f).ioRead = s.ioRead := rfl
theorem State.cluster_modCluster (s : State) (k j : Nat) (f : Cluster → Cluster) :
    (s.modCluster k f).cluster j = if k = j then f (s.cluster k) else s.cluster j := by
  simp only [State.cluster, State.modCluster, Tab.look_put]
@[simp] theorem State.cluster_modCluster_self (s : State) (k : Nat) (f : Cluster → Cluster) : (s.modCluster k f).cluster k = f (s.cluster k) := by
  simp [State.cluster_modCluster]
@[simp] theorem State.tile_modCluster (s : State) (k j : Nat) (f : Cluster → Cluster) : (s.modCluster k f).tile j = s.tile j := rfl
@[simp] theorem State.home_modCluster (s : State) (k j : Nat) (f : Cluster → Cluster) : (s.modCluster k f).home j = s.home j := rfl
@[simp] theorem State.island_modCluster (s : State) (k j : Nat) (f : Cluster → Cluster) : (s.modCluster k f).island j = s.island j := rfl
@[simp] theorem State.region_modCluster (s : State) (k j : Nat) (f : Cluster → Cluster) : (s.modCluster k f).region j = s.region j := rfl
@[simp] theorem State.wafer_modCluster (s : State) (k j : Nat) (f : Cluster → Cluster) : (s.modCluster k f).wafer j = s.wafer j := rfl
@[simp] theorem State.thread_modCluster (s : State) (k g h : Nat) (f : Cluster → Cluster) : (s.modCluster k f).thread g h = s.thread g h := rfl
@[simp] theorem State.modIsland_mem (s : State) (k : Nat) (f : Island → Island) : (s.modIsland k f).mem = s.mem := rfl
@[simp] theorem State.modIsland_tiles (s : State) (k : Nat) (f : Island → Island) : (s.modIsland k f).tiles = s.tiles := rfl
@[simp] theorem State.modIsland_homes (s : State) (k : Nat) (f : Island → Island) : (s.modIsland k f).homes = s.homes := rfl
@[simp] theorem State.modIsland_clusters (s : State) (k : Nat) (f : Island → Island) : (s.modIsland k f).clusters = s.clusters := rfl
@[simp] theorem State.modIsland_regions (s : State) (k : Nat) (f : Island → Island) : (s.modIsland k f).regions = s.regions := rfl
@[simp] theorem State.modIsland_wafers (s : State) (k : Nat) (f : Island → Island) : (s.modIsland k f).wafers = s.wafers := rfl
@[simp] theorem State.modIsland_oxsor (s : State) (k : Nat) (f : Island → Island) : (s.modIsland k f).oxsor = s.oxsor := rfl
@[simp] theorem State.modIsland_now (s : State) (k : Nat) (f : Island → Island) : (s.modIsland k f).now = s.now := rfl
@[simp] theorem State.modIsland_focus (s : State) (k : Nat) (f : Island → Island) : (s.modIsland k f).focus = s.focus := rfl
@[simp] theorem State.modIsland_agenda (s : State) (k : Nat) (f : Island → Island) : (s.modIsland k f).agenda = s.agenda := rfl
@[simp] theorem State.modIsland_fresh (s : State) (k : Nat) (f : Island → Island) : (s.modIsland k f).fresh = s.fresh := rfl
@[simp] theorem State.modIsland_perf (s : State) (k : Nat) (f : Island → Island) : (s.modIsland k f).perf = s.perf := rfl
@[simp] theorem State.modIsland_wrote (s : State) (k : Nat) (f : Island → Island) : (s.modIsland k f).wrote = s.wrote := rfl
@[simp] theorem State.modIsland_olds (s : State) (k : Nat) (f : Island → Island) : (s.modIsland k f).olds = s.olds := rfl
@[simp] theorem State.modIsland_ioRead (s : State) (k : Nat) (f : Island → Island) : (s.modIsland k f).ioRead = s.ioRead := rfl
theorem State.island_modIsland (s : State) (k j : Nat) (f : Island → Island) :
    (s.modIsland k f).island j = if k = j then f (s.island k) else s.island j := by
  simp only [State.island, State.modIsland, Tab.look_put]
@[simp] theorem State.island_modIsland_self (s : State) (k : Nat) (f : Island → Island) : (s.modIsland k f).island k = f (s.island k) := by
  simp [State.island_modIsland]
@[simp] theorem State.tile_modIsland (s : State) (k j : Nat) (f : Island → Island) : (s.modIsland k f).tile j = s.tile j := rfl
@[simp] theorem State.home_modIsland (s : State) (k j : Nat) (f : Island → Island) : (s.modIsland k f).home j = s.home j := rfl
@[simp] theorem State.cluster_modIsland (s : State) (k j : Nat) (f : Island → Island) : (s.modIsland k f).cluster j = s.cluster j := rfl
@[simp] theorem State.region_modIsland (s : State) (k j : Nat) (f : Island → Island) : (s.modIsland k f).region j = s.region j := rfl
@[simp] theorem State.wafer_modIsland (s : State) (k j : Nat) (f : Island → Island) : (s.modIsland k f).wafer j = s.wafer j := rfl
@[simp] theorem State.thread_modIsland (s : State) (k g h : Nat) (f : Island → Island) : (s.modIsland k f).thread g h = s.thread g h := rfl
@[simp] theorem State.modRegion_mem (s : State) (k : Nat) (f : Region → Region) : (s.modRegion k f).mem = s.mem := rfl
@[simp] theorem State.modRegion_tiles (s : State) (k : Nat) (f : Region → Region) : (s.modRegion k f).tiles = s.tiles := rfl
@[simp] theorem State.modRegion_homes (s : State) (k : Nat) (f : Region → Region) : (s.modRegion k f).homes = s.homes := rfl
@[simp] theorem State.modRegion_clusters (s : State) (k : Nat) (f : Region → Region) : (s.modRegion k f).clusters = s.clusters := rfl
@[simp] theorem State.modRegion_islands (s : State) (k : Nat) (f : Region → Region) : (s.modRegion k f).islands = s.islands := rfl
@[simp] theorem State.modRegion_wafers (s : State) (k : Nat) (f : Region → Region) : (s.modRegion k f).wafers = s.wafers := rfl
@[simp] theorem State.modRegion_oxsor (s : State) (k : Nat) (f : Region → Region) : (s.modRegion k f).oxsor = s.oxsor := rfl
@[simp] theorem State.modRegion_now (s : State) (k : Nat) (f : Region → Region) : (s.modRegion k f).now = s.now := rfl
@[simp] theorem State.modRegion_focus (s : State) (k : Nat) (f : Region → Region) : (s.modRegion k f).focus = s.focus := rfl
@[simp] theorem State.modRegion_agenda (s : State) (k : Nat) (f : Region → Region) : (s.modRegion k f).agenda = s.agenda := rfl
@[simp] theorem State.modRegion_fresh (s : State) (k : Nat) (f : Region → Region) : (s.modRegion k f).fresh = s.fresh := rfl
@[simp] theorem State.modRegion_perf (s : State) (k : Nat) (f : Region → Region) : (s.modRegion k f).perf = s.perf := rfl
@[simp] theorem State.modRegion_wrote (s : State) (k : Nat) (f : Region → Region) : (s.modRegion k f).wrote = s.wrote := rfl
@[simp] theorem State.modRegion_olds (s : State) (k : Nat) (f : Region → Region) : (s.modRegion k f).olds = s.olds := rfl
@[simp] theorem State.modRegion_ioRead (s : State) (k : Nat) (f : Region → Region) : (s.modRegion k f).ioRead = s.ioRead := rfl
theorem State.region_modRegion (s : State) (k j : Nat) (f : Region → Region) :
    (s.modRegion k f).region j = if k = j then f (s.region k) else s.region j := by
  simp only [State.region, State.modRegion, Tab.look_put]
@[simp] theorem State.region_modRegion_self (s : State) (k : Nat) (f : Region → Region) : (s.modRegion k f).region k = f (s.region k) := by
  simp [State.region_modRegion]
@[simp] theorem State.tile_modRegion (s : State) (k j : Nat) (f : Region → Region) : (s.modRegion k f).tile j = s.tile j := rfl
@[simp] theorem State.home_modRegion (s : State) (k j : Nat) (f : Region → Region) : (s.modRegion k f).home j = s.home j := rfl
@[simp] theorem State.cluster_modRegion (s : State) (k j : Nat) (f : Region → Region) : (s.modRegion k f).cluster j = s.cluster j := rfl
@[simp] theorem State.island_modRegion (s : State) (k j : Nat) (f : Region → Region) : (s.modRegion k f).island j = s.island j := rfl
@[simp] theorem State.wafer_modRegion (s : State) (k j : Nat) (f : Region → Region) : (s.modRegion k f).wafer j = s.wafer j := rfl
@[simp] theorem State.thread_modRegion (s : State) (k g h : Nat) (f : Region → Region) : (s.modRegion k f).thread g h = s.thread g h := rfl
@[simp] theorem State.modWafer_mem (s : State) (k : Nat) (f : Wafer → Wafer) : (s.modWafer k f).mem = s.mem := rfl
@[simp] theorem State.modWafer_tiles (s : State) (k : Nat) (f : Wafer → Wafer) : (s.modWafer k f).tiles = s.tiles := rfl
@[simp] theorem State.modWafer_homes (s : State) (k : Nat) (f : Wafer → Wafer) : (s.modWafer k f).homes = s.homes := rfl
@[simp] theorem State.modWafer_clusters (s : State) (k : Nat) (f : Wafer → Wafer) : (s.modWafer k f).clusters = s.clusters := rfl
@[simp] theorem State.modWafer_islands (s : State) (k : Nat) (f : Wafer → Wafer) : (s.modWafer k f).islands = s.islands := rfl
@[simp] theorem State.modWafer_regions (s : State) (k : Nat) (f : Wafer → Wafer) : (s.modWafer k f).regions = s.regions := rfl
@[simp] theorem State.modWafer_oxsor (s : State) (k : Nat) (f : Wafer → Wafer) : (s.modWafer k f).oxsor = s.oxsor := rfl
@[simp] theorem State.modWafer_now (s : State) (k : Nat) (f : Wafer → Wafer) : (s.modWafer k f).now = s.now := rfl
@[simp] theorem State.modWafer_focus (s : State) (k : Nat) (f : Wafer → Wafer) : (s.modWafer k f).focus = s.focus := rfl
@[simp] theorem State.modWafer_agenda (s : State) (k : Nat) (f : Wafer → Wafer) : (s.modWafer k f).agenda = s.agenda := rfl
@[simp] theorem State.modWafer_fresh (s : State) (k : Nat) (f : Wafer → Wafer) : (s.modWafer k f).fresh = s.fresh := rfl
@[simp] theorem State.modWafer_perf (s : State) (k : Nat) (f : Wafer → Wafer) : (s.modWafer k f).perf = s.perf := rfl
@[simp] theorem State.modWafer_wrote (s : State) (k : Nat) (f : Wafer → Wafer) : (s.modWafer k f).wrote = s.wrote := rfl
@[simp] theorem State.modWafer_olds (s : State) (k : Nat) (f : Wafer → Wafer) : (s.modWafer k f).olds = s.olds := rfl
@[simp] theorem State.modWafer_ioRead (s : State) (k : Nat) (f : Wafer → Wafer) : (s.modWafer k f).ioRead = s.ioRead := rfl
theorem State.wafer_modWafer (s : State) (k j : Nat) (f : Wafer → Wafer) :
    (s.modWafer k f).wafer j = if k = j then f (s.wafer k) else s.wafer j := by
  simp only [State.wafer, State.modWafer, Tab.look_put]
@[simp] theorem State.wafer_modWafer_self (s : State) (k : Nat) (f : Wafer → Wafer) : (s.modWafer k f).wafer k = f (s.wafer k) := by
  simp [State.wafer_modWafer]
@[simp] theorem State.tile_modWafer (s : State) (k j : Nat) (f : Wafer → Wafer) : (s.modWafer k f).tile j = s.tile j := rfl
@[simp] theorem State.home_modWafer (s : State) (k j : Nat) (f : Wafer → Wafer) : (s.modWafer k f).home j = s.home j := rfl
@[simp] theorem State.cluster_modWafer (s : State) (k j : Nat) (f : Wafer → Wafer) : (s.modWafer k f).cluster j = s.cluster j := rfl
@[simp] theorem State.island_modWafer (s : State) (k j : Nat) (f : Wafer → Wafer) : (s.modWafer k f).island j = s.island j := rfl
@[simp] theorem State.region_modWafer (s : State) (k j : Nat) (f : Wafer → Wafer) : (s.modWafer k f).region j = s.region j := rfl
@[simp] theorem State.thread_modWafer (s : State) (k g h : Nat) (f : Wafer → Wafer) : (s.modWafer k f).thread g h = s.thread g h := rfl

/-! A thread of a tile -/

theorem Tile.thread_modThread (t : Tile) (h j : Nat) (f : Thread → Thread) :
    (t.modThread h f).thread j = if h = j then f (t.thread h) else t.thread j := by
  simp only [Tile.thread, Tile.modThread, Tab.look_put]
@[simp] theorem Tile.modThread_r (t : Tile) (h : Nat) (f : Thread → Thread) : (t.modThread h f).r = t.r := rfl
@[simp] theorem Tile.modThread_e (t : Tile) (h : Nat) (f : Thread → Thread) : (t.modThread h f).e = t.e := rfl
@[simp] theorem Tile.modThread_rt (t : Tile) (h : Nat) (f : Thread → Thread) : (t.modThread h f).rt = t.rt := rfl
@[simp] theorem Tile.modThread_c (t : Tile) (h : Nat) (f : Thread → Thread) : (t.modThread h f).c = t.c := rfl

@[simp] theorem Tile.modEng_r (t : Tile) (f : Engines → Engines) : (t.modEng f).r = t.r := rfl
@[simp] theorem Tile.modEng_e (t : Tile) (f : Engines → Engines) : (t.modEng f).e = f t.e := rfl
@[simp] theorem Tile.modEng_rt (t : Tile) (f : Engines → Engines) : (t.modEng f).rt = t.rt := rfl
@[simp] theorem Tile.modEng_c (t : Tile) (f : Engines → Engines) : (t.modEng f).c = t.c := rfl
@[simp] theorem Tile.modEng_thr (t : Tile) (f : Engines → Engines) : (t.modEng f).thr = t.thr := rfl
@[simp] theorem Tile.thread_modEng (t : Tile) (f : Engines → Engines) (h : Nat) : (t.modEng f).thread h = t.thread h := rfl
@[simp] theorem Tile.modRegs_r (t : Tile) (f : TileRegs → TileRegs) : (t.modRegs f).r = f t.r := rfl
@[simp] theorem Tile.modRegs_e (t : Tile) (f : TileRegs → TileRegs) : (t.modRegs f).e = t.e := rfl
@[simp] theorem Tile.modRegs_rt (t : Tile) (f : TileRegs → TileRegs) : (t.modRegs f).rt = t.rt := rfl
@[simp] theorem Tile.modRegs_c (t : Tile) (f : TileRegs → TileRegs) : (t.modRegs f).c = t.c := rfl
@[simp] theorem Tile.modRegs_thr (t : Tile) (f : TileRegs → TileRegs) : (t.modRegs f).thr = t.thr := rfl
@[simp] theorem Tile.thread_modRegs (t : Tile) (f : TileRegs → TileRegs) (h : Nat) : (t.modRegs f).thread h = t.thread h := rfl
@[simp] theorem Tile.modRouter_r (t : Tile) (f : Router → Router) : (t.modRouter f).r = t.r := rfl
@[simp] theorem Tile.modRouter_e (t : Tile) (f : Router → Router) : (t.modRouter f).e = t.e := rfl
@[simp] theorem Tile.modRouter_rt (t : Tile) (f : Router → Router) : (t.modRouter f).rt = f t.rt := rfl
@[simp] theorem Tile.modRouter_c (t : Tile) (f : Router → Router) : (t.modRouter f).c = t.c := rfl
@[simp] theorem Tile.modRouter_thr (t : Tile) (f : Router → Router) : (t.modRouter f).thr = t.thr := rfl
@[simp] theorem Tile.thread_modRouter (t : Tile) (f : Router → Router) (h : Nat) : (t.modRouter f).thread h = t.thread h := rfl
@[simp] theorem Tile.modCtl_r (t : Tile) (f : TileCtl → TileCtl) : (t.modCtl f).r = t.r := rfl
@[simp] theorem Tile.modCtl_e (t : Tile) (f : TileCtl → TileCtl) : (t.modCtl f).e = t.e := rfl
@[simp] theorem Tile.modCtl_rt (t : Tile) (f : TileCtl → TileCtl) : (t.modCtl f).rt = t.rt := rfl
@[simp] theorem Tile.modCtl_c (t : Tile) (f : TileCtl → TileCtl) : (t.modCtl f).c = f t.c := rfl
@[simp] theorem Tile.modCtl_thr (t : Tile) (f : TileCtl → TileCtl) : (t.modCtl f).thr = t.thr := rfl
@[simp] theorem Tile.thread_modCtl (t : Tile) (f : TileCtl → TileCtl) (h : Nat) : (t.modCtl f).thread h = t.thread h := rfl
@[simp] theorem Thread.modRegs_run (t : Thread) (f : Regs → Regs) : (t.modRegs f).run = t.run := rfl
@[simp] theorem Thread.modRegs_r (t : Thread) (f : Regs → Regs) : (t.modRegs f).r = f t.r := rfl
@[simp] theorem Thread.modRun_r (t : Thread) (f : Run → Run) : (t.modRun f).r = t.r := rfl
@[simp] theorem Thread.modRun_run (t : Thread) (f : Run → Run) : (t.modRun f).run = f t.run := rfl
@[simp] theorem Thread.putX_r (t : Thread) (n : Nat) (v : Word64) : (t.putX n v).r = t.r.setX n v := rfl
@[simp] theorem Thread.putF_r (t : Thread) (n : Nat) (v : Word32) : (t.putF n v).r = t.r.setF n v := rfl
@[simp] theorem Thread.putF_run (t : Thread) (n : Nat) (v : Word32) : (t.putF n v).run = t.run := rfl

theorem State.thread_modThread (s : State) (g h g' h' : Nat) (f : Thread → Thread) :
    (s.modThread g h f).thread g' h' = if g = g' ∧ h = h' then f (s.thread g h) else s.thread g' h' := by
  simp only [State.thread, State.modThread, State.tile_modTile]
  by_cases hg : g = g'
  · subst hg; simp only [if_true, Tile.thread_modThread, true_and]
  · simp [hg]
@[simp] theorem State.thread_modThread_self (s : State) (g h : Nat) (f : Thread → Thread) :
    (s.modThread g h f).thread g h = f (s.thread g h) := by simp [State.thread_modThread]
theorem State.tile_modThread (s : State) (g h g' : Nat) (f : Thread → Thread) :
    (s.modThread g h f).tile g' = if g = g' then (s.tile g).modThread h f else s.tile g' := by
  simp only [State.modThread, State.tile_modTile]

@[simp] theorem State.modThread_mem (s : State) (g h : Nat) (f : Thread → Thread) : (s.modThread g h f).mem = s.mem := rfl
@[simp] theorem State.modMe_mem (s : State) (f : Thread → Thread) : (s.modMe f).mem = s.mem := rfl
@[simp] theorem State.modMyTile_mem (s : State) (f : Tile → Tile) : (s.modMyTile f).mem = s.mem := rfl
@[simp] theorem State.modThread_homes (s : State) (g h : Nat) (f : Thread → Thread) : (s.modThread g h f).homes = s.homes := rfl
@[simp] theorem State.modMe_homes (s : State) (f : Thread → Thread) : (s.modMe f).homes = s.homes := rfl
@[simp] theorem State.modMyTile_homes (s : State) (f : Tile → Tile) : (s.modMyTile f).homes = s.homes := rfl
@[simp] theorem State.modThread_clusters (s : State) (g h : Nat) (f : Thread → Thread) : (s.modThread g h f).clusters = s.clusters := rfl
@[simp] theorem State.modMe_clusters (s : State) (f : Thread → Thread) : (s.modMe f).clusters = s.clusters := rfl
@[simp] theorem State.modMyTile_clusters (s : State) (f : Tile → Tile) : (s.modMyTile f).clusters = s.clusters := rfl
@[simp] theorem State.modThread_islands (s : State) (g h : Nat) (f : Thread → Thread) : (s.modThread g h f).islands = s.islands := rfl
@[simp] theorem State.modMe_islands (s : State) (f : Thread → Thread) : (s.modMe f).islands = s.islands := rfl
@[simp] theorem State.modMyTile_islands (s : State) (f : Tile → Tile) : (s.modMyTile f).islands = s.islands := rfl
@[simp] theorem State.modThread_regions (s : State) (g h : Nat) (f : Thread → Thread) : (s.modThread g h f).regions = s.regions := rfl
@[simp] theorem State.modMe_regions (s : State) (f : Thread → Thread) : (s.modMe f).regions = s.regions := rfl
@[simp] theorem State.modMyTile_regions (s : State) (f : Tile → Tile) : (s.modMyTile f).regions = s.regions := rfl
@[simp] theorem State.modThread_wafers (s : State) (g h : Nat) (f : Thread → Thread) : (s.modThread g h f).wafers = s.wafers := rfl
@[simp] theorem State.modMe_wafers (s : State) (f : Thread → Thread) : (s.modMe f).wafers = s.wafers := rfl
@[simp] theorem State.modMyTile_wafers (s : State) (f : Tile → Tile) : (s.modMyTile f).wafers = s.wafers := rfl
@[simp] theorem State.modThread_oxsor (s : State) (g h : Nat) (f : Thread → Thread) : (s.modThread g h f).oxsor = s.oxsor := rfl
@[simp] theorem State.modMe_oxsor (s : State) (f : Thread → Thread) : (s.modMe f).oxsor = s.oxsor := rfl
@[simp] theorem State.modMyTile_oxsor (s : State) (f : Tile → Tile) : (s.modMyTile f).oxsor = s.oxsor := rfl
@[simp] theorem State.modThread_now (s : State) (g h : Nat) (f : Thread → Thread) : (s.modThread g h f).now = s.now := rfl
@[simp] theorem State.modMe_now (s : State) (f : Thread → Thread) : (s.modMe f).now = s.now := rfl
@[simp] theorem State.modMyTile_now (s : State) (f : Tile → Tile) : (s.modMyTile f).now = s.now := rfl
@[simp] theorem State.modThread_focus (s : State) (g h : Nat) (f : Thread → Thread) : (s.modThread g h f).focus = s.focus := rfl
@[simp] theorem State.modMe_focus (s : State) (f : Thread → Thread) : (s.modMe f).focus = s.focus := rfl
@[simp] theorem State.modMyTile_focus (s : State) (f : Tile → Tile) : (s.modMyTile f).focus = s.focus := rfl
@[simp] theorem State.modThread_agenda (s : State) (g h : Nat) (f : Thread → Thread) : (s.modThread g h f).agenda = s.agenda := rfl
@[simp] theorem State.modMe_agenda (s : State) (f : Thread → Thread) : (s.modMe f).agenda = s.agenda := rfl
@[simp] theorem State.modMyTile_agenda (s : State) (f : Tile → Tile) : (s.modMyTile f).agenda = s.agenda := rfl
@[simp] theorem State.modThread_fresh (s : State) (g h : Nat) (f : Thread → Thread) : (s.modThread g h f).fresh = s.fresh := rfl
@[simp] theorem State.modMe_fresh (s : State) (f : Thread → Thread) : (s.modMe f).fresh = s.fresh := rfl
@[simp] theorem State.modMyTile_fresh (s : State) (f : Tile → Tile) : (s.modMyTile f).fresh = s.fresh := rfl
@[simp] theorem State.modThread_perf (s : State) (g h : Nat) (f : Thread → Thread) : (s.modThread g h f).perf = s.perf := rfl
@[simp] theorem State.modMe_perf (s : State) (f : Thread → Thread) : (s.modMe f).perf = s.perf := rfl
@[simp] theorem State.modMyTile_perf (s : State) (f : Tile → Tile) : (s.modMyTile f).perf = s.perf := rfl
@[simp] theorem State.modThread_wrote (s : State) (g h : Nat) (f : Thread → Thread) : (s.modThread g h f).wrote = s.wrote := rfl
@[simp] theorem State.modMe_wrote (s : State) (f : Thread → Thread) : (s.modMe f).wrote = s.wrote := rfl
@[simp] theorem State.modMyTile_wrote (s : State) (f : Tile → Tile) : (s.modMyTile f).wrote = s.wrote := rfl
@[simp] theorem State.modThread_olds (s : State) (g h : Nat) (f : Thread → Thread) : (s.modThread g h f).olds = s.olds := rfl
@[simp] theorem State.modMe_olds (s : State) (f : Thread → Thread) : (s.modMe f).olds = s.olds := rfl
@[simp] theorem State.modMyTile_olds (s : State) (f : Tile → Tile) : (s.modMyTile f).olds = s.olds := rfl
@[simp] theorem State.modThread_ioRead (s : State) (g h : Nat) (f : Thread → Thread) : (s.modThread g h f).ioRead = s.ioRead := rfl
@[simp] theorem State.modMe_ioRead (s : State) (f : Thread → Thread) : (s.modMe f).ioRead = s.ioRead := rfl
@[simp] theorem State.modMyTile_ioRead (s : State) (f : Tile → Tile) : (s.modMyTile f).ioRead = s.ioRead := rfl
@[simp] theorem State.home_modThread (s : State) (g h j : Nat) (f : Thread → Thread) : (s.modThread g h f).home j = s.home j := rfl
@[simp] theorem State.home_modMe (s : State) (j : Nat) (f : Thread → Thread) : (s.modMe f).home j = s.home j := rfl
@[simp] theorem State.cluster_modThread (s : State) (g h j : Nat) (f : Thread → Thread) : (s.modThread g h f).cluster j = s.cluster j := rfl
@[simp] theorem State.cluster_modMe (s : State) (j : Nat) (f : Thread → Thread) : (s.modMe f).cluster j = s.cluster j := rfl
@[simp] theorem State.island_modThread (s : State) (g h j : Nat) (f : Thread → Thread) : (s.modThread g h f).island j = s.island j := rfl
@[simp] theorem State.island_modMe (s : State) (j : Nat) (f : Thread → Thread) : (s.modMe f).island j = s.island j := rfl
@[simp] theorem State.region_modThread (s : State) (g h j : Nat) (f : Thread → Thread) : (s.modThread g h f).region j = s.region j := rfl
@[simp] theorem State.region_modMe (s : State) (j : Nat) (f : Thread → Thread) : (s.modMe f).region j = s.region j := rfl
@[simp] theorem State.wafer_modThread (s : State) (g h j : Nat) (f : Thread → Thread) : (s.modThread g h f).wafer j = s.wafer j := rfl
@[simp] theorem State.wafer_modMe (s : State) (j : Nat) (f : Thread → Thread) : (s.modMe f).wafer j = s.wafer j := rfl
@[simp] theorem State.me_modMe (s : State) (f : Thread → Thread) : (s.modMe f).me = f s.me := by
  simp [State.me, State.modMe, State.modThread]
  simp [State.thread, Tile.thread_modThread]

/-! Registers -/

theorem Regs.getX_setX (r : Regs) (n m : Nat) (v : Word64) :
    (r.setX n v).getX m = if m = 0 then 0 else if n = m then v else r.getX m := by
  unfold Regs.getX Regs.setX
  by_cases hm : m = 0
  · simp [hm]
  · by_cases hn : n = 0
    · subst hn; simp [hm]; intro h; exact absurd h.symm hm
    · simp [hn, hm, Tab.look_put]
@[simp] theorem Regs.getX_zero (r : Regs) : r.getX 0 = 0 := rfl
@[simp] theorem Regs.setX_zero (r : Regs) (v : Word64) : r.setX 0 v = r := rfl
theorem Regs.getF_setF (r : Regs) (n m : Nat) (v : Word32) : (r.setF n v).getF m = if n = m then v else r.getF m := by
  simp [Regs.getF, Regs.setF, Tab.look_put]
theorem TileRegs.getV_setV (r : TileRegs) (n m : Nat) (v : VWord) : (r.setV n v).getV m = if n = m then v else r.getV m := by
  simp [TileRegs.getV, TileRegs.setV, Tab.look_put]
theorem TileRegs.getP_setP (r : TileRegs) (n m : Nat) (v : Word64) : (r.setP n v).getP m = if n = m then v else r.getP m := by
  simp [TileRegs.getP, TileRegs.setP, Tab.look_put]
@[simp] theorem Regs.setX_pc (r : Regs) (n : Nat) (v : Word64) : (r.setX n v).pc = r.pc := by unfold Regs.setX; split <;> rfl
@[simp] theorem Regs.setX_loop (r : Regs) (n : Nat) (v : Word64) : (r.setX n v).loop = r.loop := by unfold Regs.setX; split <;> rfl
@[simp] theorem Regs.setX_instret (r : Regs) (n : Nat) (v : Word64) : (r.setX n v).instret = r.instret := by
  unfold Regs.setX; split <;> rfl
@[simp] theorem Regs.setF_pc (r : Regs) (n : Nat) (v : Word32) : (r.setF n v).pc = r.pc := rfl
@[simp] theorem Regs.setF_loop (r : Regs) (n : Nat) (v : Word32) : (r.setF n v).loop = r.loop := rfl
@[simp] theorem Regs.setF_instret (r : Regs) (n : Nat) (v : Word32) : (r.setF n v).instret = r.instret := rfl

end Sys2Proof.Machine
end

