-- ==== Sys2Proof/Laws/Same.lean ====
section
/-!
SUPPORT. The shared operations on which every meaning ends: what each of them leaves alone. `Same` is the frame of the hardware's
bookkeeping (messages, waits, stops); `finish_done` says once how an instruction completes.
-/
set_option Elab.async false

namespace Sys2Proof.Machine

/-- Bookkeeping that leaves the instruction in progress alone too: the repeat it belongs to, the pending long-latency writes, and what
waits for the thread's boundary. -/
structure Calm (s t : State) : Prop extends Same s t where
  rep : ∀ g h, (t.thread g h).run.rep = (s.thread g h).run.rep
  pend : ∀ g h, (t.thread g h).run.pend = (s.thread g h).run.pend
  clear : ∀ g h, (s.thread g h).run.clear → (t.thread g h).run.clear

theorem Same.refl (s : State) : Same s s := ⟨rfl, fun _ _ => rfl, fun _ => rfl, fun _ => rfl, rfl, rfl, rfl⟩

theorem Same.trans {s t u : State} (a : Same s t) (b : Same t u) : Same s u :=
  ⟨b.focus.trans a.focus, fun g h => (b.thr g h).trans (a.thr g h), fun g => (b.tregs g).trans (a.tregs g),
   fun g => (b.reps g).trans (a.reps g), b.mem.trans a.mem, b.wafers.trans a.wafers, b.now.trans a.now⟩

theorem Same.foldl {α : Type} (f : State → α → State) (hf : ∀ s a, Same s (f s a)) (l : List α) (s : State) :
    Same s (l.foldl f s) := by
  induction l generalizing s with
  | nil => exact Same.refl s
  | cons a r ih => exact (hf s a).trans (ih _)

theorem Same.ite {s t u : State} (c : Prop) [Decidable c] (a : Same s t) (b : Same s u) : Same s (if c then t else u) := by
  split <;> assumption

theorem Same.modTile (s : State) (g : Nat) (f : Tile → Tile) (h1 : ∀ h, ((f (s.tile g)).thread h).r = ((s.tile g).thread h).r)
    (h2 : (f (s.tile g)).r = (s.tile g).r) (h3 : (f (s.tile g)).c.reps = (s.tile g).c.reps) : Same s (s.modTile g f) := by
  refine ⟨rfl, fun g' h' => ?_, fun g' => ?_, fun g' => ?_, rfl, rfl, rfl⟩
  · simp only [State.thread, State.tile_modTile]; split
    · subst_vars; exact h1 h'
    · rfl
  · simp only [State.tile_modTile]; split
    · subst_vars; exact h2
    · rfl
  · simp only [State.tile_modTile]; split
    · subst_vars; exact h3
    · rfl

theorem Same.modThread (s : State) (g h : Nat) (f : Thread → Thread) (hf : (f (s.thread g h)).r = (s.thread g h).r) :
    Same s (s.modThread g h f) := by
  refine Same.modTile s g _ (fun h' => ?_) rfl rfl
  simp only [Tile.thread_modThread]; split
  · subst_vars; exact hf
  · rfl

theorem Same.modRun (s : State) (g h : Nat) (f : Thread → Run → Run) :
    Same s (s.modThread g h (fun t => t.modRun (f t))) := Same.modThread s g h _ rfl

theorem Same.modEng (s : State) (g : Nat) (f : Engines → Engines) : Same s (s.modTile g (fun t => t.modEng f)) :=
  Same.modTile s g _ (fun _ => rfl) rfl rfl
theorem Same.modRouter (s : State) (g : Nat) (f : Router → Router) : Same s (s.modTile g (fun t => t.modRouter f)) :=
  Same.modTile s g _ (fun _ => rfl) rfl rfl
theorem Same.modCtl (s : State) (g : Nat) (f : TileCtl → TileCtl) (h : (f (s.tile g).c).reps = (s.tile g).c.reps) :
    Same s (s.modTile g (fun t => t.modCtl f)) := Same.modTile s g _ (fun _ => rfl) rfl h
theorem Same.modHome (s : State) (k : Nat) (f : HomeSt → HomeSt) : Same s (s.modHome k f) :=
  ⟨rfl, fun _ _ => rfl, fun _ => rfl, fun _ => rfl, rfl, rfl, rfl⟩
theorem Same.modCluster (s : State) (k : Nat) (f : Cluster → Cluster) : Same s (s.modCluster k f) :=
  ⟨rfl, fun _ _ => rfl, fun _ => rfl, fun _ => rfl, rfl, rfl, rfl⟩
theorem Same.modIsland (s : State) (k : Nat) (f : Island → Island) : Same s (s.modIsland k f) :=
  ⟨rfl, fun _ _ => rfl, fun _ => rfl, fun _ => rfl, rfl, rfl, rfl⟩
theorem Same.modRegion (s : State) (k : Nat) (f : Region → Region) : Same s (s.modRegion k f) :=
  ⟨rfl, fun _ _ => rfl, fun _ => rfl, fun _ => rfl, rfl, rfl, rfl⟩

theorem Calm.refl (s : State) : Calm s s := ⟨Same.refl s, fun _ _ => rfl, fun _ _ => rfl, fun _ _ => id⟩
theorem Calm.trans {s t u : State} (a : Calm s t) (b : Calm t u) : Calm s u :=
  ⟨a.toSame.trans b.toSame, fun g h => (b.rep g h).trans (a.rep g h), fun g h => (b.pend g h).trans (a.pend g h),
   fun g h x => b.clear g h (a.clear g h x)⟩
theorem Calm.foldl {α : Type} (f : State → α → State) (hf : ∀ s a, Calm s (f s a)) (l : List α) (s : State) :
    Calm s (l.foldl f s) := by
  induction l generalizing s with
  | nil => exact Calm.refl s
  | cons a r ih => exact (hf s a).trans (ih _)
theorem Calm.ite {s t u : State} (c : Prop) [Decidable c] (a : Calm s t) (b : Calm s u) : Calm s (if c then t else u) := by
  split <;> assumption
theorem Calm.modThread (s : State) (g h : Nat) (f : Thread → Thread) (h1 : (f (s.thread g h)).r = (s.thread g h).r)
    (h2 : (f (s.thread g h)).run.rep = (s.thread g h).run.rep) (h3 : (f (s.thread g h)).run.pend = (s.thread g h).run.pend)
    (h4 : (s.thread g h).run.clear → (f (s.thread g h)).run.clear) : Calm s (s.modThread g h f) := by
  refine ⟨Same.modThread s g h f h1, fun g' h' => ?_, fun g' h' => ?_, fun g' h' => ?_⟩ <;>
  · rw [State.thread_modThread]; split
    · rename_i e; obtain ⟨rfl, rfl⟩ := e; assumption
    · first | rfl | exact id
theorem Calm.modTile (s : State) (g : Nat) (f : Tile → Tile) (h1 : (f (s.tile g)).thr = (s.tile g).thr)
    (h2 : (f (s.tile g)).r = (s.tile g).r) (h3 : (f (s.tile g)).c.reps = (s.tile g).c.reps) : Calm s (s.modTile g f) := by
  have ht : ∀ h, (f (s.tile g)).thread h = (s.tile g).thread h := fun h => by simp only [Tile.thread, h1]
  refine ⟨Same.modTile s g f (fun h => by rw [ht]) h2 h3, fun g' h' => ?_, fun g' h' => ?_, fun g' h' => ?_⟩ <;>
  · simp only [State.thread, State.tile_modTile]; split
    · subst_vars; rw [ht]; try exact id
    · first | rfl | exact id
theorem Calm.modEng (s : State) (g : Nat) (f : Engines → Engines) : Calm s (s.modTile g (fun t => t.modEng f)) :=
  Calm.modTile s g _ rfl rfl rfl
theorem Calm.modRouter (s : State) (g : Nat) (f : Router → Router) : Calm s (s.modTile g (fun t => t.modRouter f)) :=
  Calm.modTile s g _ rfl rfl rfl
theorem Calm.modCtl (s : State) (g : Nat) (f : TileCtl → TileCtl) (h : (f (s.tile g).c).reps = (s.tile g).c.reps) :
    Calm s (s.modTile g (fun t => t.modCtl f)) := Calm.modTile s g _ rfl rfl h
theorem Calm.modHome (s : State) (k : Nat) (f : HomeSt → HomeSt) : Calm s (s.modHome k f) :=
  ⟨Same.modHome s k f, fun _ _ => rfl, fun _ _ => rfl, fun _ _ => id⟩
theorem Calm.modCluster (s : State) (k : Nat) (f : Cluster → Cluster) : Calm s (s.modCluster k f) :=
  ⟨Same.modCluster s k f, fun _ _ => rfl, fun _ _ => rfl, fun _ _ => id⟩
theorem Calm.modIsland (s : State) (k : Nat) (f : Island → Island) : Calm s (s.modIsland k f) :=
  ⟨Same.modIsland s k f, fun _ _ => rfl, fun _ _ => rfl, fun _ _ => id⟩
theorem Calm.modRegion (s : State) (k : Nat) (f : Region → Region) : Calm s (s.modRegion k f) :=
  ⟨Same.modRegion s k f, fun _ _ => rfl, fun _ _ => rfl, fun _ _ => id⟩

/-! Stops -/

theorem dropThreadAt_same (s : State) (g h : Nat) : Same s (s.dropThreadAt g h) :=
  ⟨rfl, fun _ _ => rfl, fun _ => rfl, fun _ => rfl, rfl, rfl, rfl⟩
theorem dropWalks_same (s : State) (g h : Nat) : Same s (s.dropWalks g h) := Same.modEng s g _

theorem dropWatchReads_same (s : State) (g h : Nat) : Same s (s.dropWatchReads g h) := by
  unfold State.dropWatchReads; dsimp only; split
  · exact Same.modEng s g _
  · exact Same.refl s

theorem dropAll_same (s : State) (g h : Nat) : Same s (((s.dropThreadAt g h).dropWalks g h).dropWatchReads g h) :=
  ((dropThreadAt_same s g h).trans (dropWalks_same _ g h)).trans (dropWatchReads_same _ g h)

/-- What every part of a fold leaves alone, the fold does. -/
theorem foldl_keep {α β : Type} (P : State → β) (f : State → α → State) (l : List α) (u : State) (hf : ∀ u m, m ∈ l → P (f u m) = P u) :
    P (l.foldl f u) = P u := by
  induction l generalizing u with
  | nil => rfl
  | cons m r ih => rw [List.foldl_cons, ih _ (fun u x hx => hf u x (List.mem_cons_of_mem _ hx)), hf u m (List.mem_cons_self ..)]

theorem dropAll_thread (s : State) (g h g' h' : Nat) :
    (((s.dropThreadAt g h).dropWalks g h).dropWatchReads g h).thread g' h' = s.thread g' h' := by
  have e1 : ∀ u : State, (u.dropWalks g h).thread g' h' = u.thread g' h' := fun u => by
    simp only [State.dropWalks, State.thread, State.tile_modTile]; split
    · subst_vars; rfl
    · rfl
  have e2 : ∀ u : State, (u.dropWatchReads g h).thread g' h' = u.thread g' h' := fun u => by
    unfold State.dropWatchReads; dsimp only; split
    · simp only [State.thread, State.tile_modTile]; split
      · subst_vars; rfl
      · rfl
    · rfl
  rw [e2, e1]; rfl

theorem dropAll_islands (s : State) (g h : Nat) : (((s.dropThreadAt g h).dropWalks g h).dropWatchReads g h).islands = s.islands := by
  unfold State.dropWatchReads; dsimp only; split <;> rfl

/-- Posting a report leaves every thread alone. -/
theorem postReport_thread (s : State) (g : Nat) (r : FaultRep) (g' h' : Nat) : (s.postReport g r).thread g' h' = s.thread g' h' := by
  simp only [State.postReport, State.thread, State.tile_modIsland, State.tile_modTile]; split
  · subst_vars; rfl
  · rfl

theorem stopOne_self (s : State) (g h : Nat) (h1 : (s.thread g h).run.ts ≠ .idle) (h2 : (s.thread g h).run.ts ≠ .stopped) :
    ((s.stopOne g h).thread g h).run.ts = .stopped ∧ ((s.stopOne g h).thread g h).run.heldTs = (s.thread g h).run.ts := by
  unfold State.stopOne
  dsimp only
  generalize he : (s.thread g h).run.ts = q at h1 h2 ⊢
  cases q <;> first | exact absurd rfl h1 | exact absurd rfl h2 | skip
  all_goals
    dsimp only
    split <;> simp [State.thread_modThread_self, postReport_thread]

theorem stopOne_keep (s : State) (g h g' h' : Nat) (hk : ¬(g = g' ∧ h = h')) :
    ((s.stopOne g h).thread g' h').run = (s.thread g' h').run := by
  unfold State.stopOne
  dsimp only
  split
  · rfl
  · rfl
  · split
    · rw [State.thread_modThread, if_neg hk, dropAll_thread]
    · rw [State.thread_modThread, if_neg hk, postReport_thread, State.thread_modThread, if_neg hk, dropAll_thread]

/-- A thread that owes no report owes none when it has stopped. -/
theorem stopOne_report (s : State) (g h : Nat) (hr : (s.thread g h).run.stop.report = none) :
    ((s.stopOne g h).thread g h).run.stop.report = none := by
  unfold State.stopOne
  dsimp only
  rw [hr]
  split
  · exact hr
  · exact hr
  · rw [State.thread_modThread_self, dropAll_thread]; exact hr

theorem stopOne_islands (s : State) (g h : Nat) (hr : (s.thread g h).run.stop.report = none) : (s.stopOne g h).islands = s.islands := by
  unfold State.stopOne; dsimp only; rw [hr]
  split
  · rfl
  · rfl
  · exact dropAll_islands s g h

theorem attachedOf_ne (s : State) (g m : Nat) (h : m ∈ s.attachedOf g) : m ≠ g := by
  unfold State.attachedOf at h
  simp only [List.mem_filter, Bool.and_eq_true, bne_iff_ne] at h
  exact h.2.1.1

/-- Stopping a thread with its attached members leaves the runs of the tile's own threads as `stopOne` leaves them. -/
theorem stopWith_run (s : State) (g h h' : Nat) (rep : Option (Nat × Nat × Nat)) :
    ((s.stopWith g h rep).thread g h').run = ((s.stopOne g h).thread g h').run := by
  unfold State.stopWith
  dsimp only
  split
  · refine foldl_keep (fun u : State => (u.thread g h').run) _ _ _ (fun u m hm => ?_)
    have hmg := attachedOf_ne _ _ _ hm
    split
    · rw [State.thread_modThread, if_neg (fun q => hmg q.1)]
    · rw [stopOne_keep _ _ _ _ _ (fun q => hmg q.1), State.thread_modThread, if_neg (fun q => hmg q.1)]
  · rfl

theorem stopThread_keep (s : State) (g h h' : Nat) (hk : h ≠ h') : ((s.stopThread g h).thread g h').run = (s.thread g h').run := by
  rw [State.stopThread, stopWith_run, stopOne_keep _ _ _ _ _ (fun q => hk q.2)]

theorem stopThread_self (s : State) (g h : Nat) : ((s.stopThread g h).thread g h).run = ((s.stopOne g h).thread g h).run :=
  stopWith_run s g h h none

/-- A thread that owes no report stops without one, and its attached members too. -/
theorem stopThread_islands (s : State) (g h : Nat) (hr : (s.thread g h).run.stop.report = none) :
    (s.stopThread g h).islands = s.islands := by
  unfold State.stopThread State.stopWith
  dsimp only
  split
  · rw [foldl_keep State.islands _ _ _ (fun u m _ => ?_), stopOne_islands _ _ _ hr]
    split
    · rfl
    · rw [stopOne_islands _ _ _ (by simp)]; rfl
  · exact stopOne_islands _ _ _ hr

theorem stopOne_same (s : State) (g h : Nat) (hr : (s.thread g h).run.stop.report = none) : Same s (s.stopOne g h) := by
  unfold State.stopOne
  dsimp only
  rw [hr]
  split <;> first | exact Same.refl s | exact (dropAll_same s g h).trans (Same.modThread _ _ _ _ rfl)

theorem stopThread_same (s : State) (g h : Nat) (hr : (s.thread g h).run.stop.report = none) : Same s (s.stopThread g h) := by
  unfold State.stopThread State.stopWith
  refine (stopOne_same s g h hr).trans ?_
  dsimp only
  split
  · refine Same.foldl _ (fun s m => ?_) _ _
    refine (Same.modThread s m 0 (fun t => t.modRun (fun r => { r with stop := { r.stop with leader := true, report := none } })) rfl).trans ?_
    split
    · exact Same.refl _
    · exact stopOne_same _ _ _ (by simp)
  · exact Same.refl _

theorem noteDebt_same (s : State) (r : Nat) : Same s (s.noteDebt r) := by
  unfold State.noteDebt; dsimp only; split
  · exact Same.modRegion s r _
  · exact Same.refl s

theorem debugHalt_same (s : State) (g h : Nat) (hr : (s.thread g h).run.stop.report = none) : Same s (s.debugHalt g h) := by
  unfold State.debugHalt
  split
  · exact Same.refl s
  · split
    · exact Same.modThread _ _ _ _ rfl
    · exact ((stopThread_same s g h hr).trans (Same.modThread _ _ _ _ rfl)).trans (noteDebt_same _ _)

theorem fenceDone_calm (s : State) (g h p q sc : Nat) : Calm s (s.fenceDone g h p q sc) := by
  unfold State.fenceDone
  have a : Calm s (s.fenceReads g h p sc) := by
    unfold State.fenceReads; dsimp only; split
    · exact Calm.refl s
    · exact Calm.modThread s g h _ rfl rfl rfl id
  refine a.trans ?_
  generalize s.fenceReads g h p sc = u
  unfold State.fenceRefresh
  split
  · exact Calm.refl u
  · split
    · exact Calm.modThread u g h _ rfl rfl rfl id
    · exact Calm.modThread u g h _ rfl rfl rfl id

theorem dropFences_calm (s : State) (g h : Nat) : Calm s (s.dropFences g h) := by
  unfold State.dropFences; split
  · exact Calm.refl s
  · exact (Calm.modThread s g h _ rfl rfl rfl id).trans (Calm.foldl _ (fun s _ => fenceDone_calm s _ _ _ _ _) _ _)

theorem stopDue_same (s : State) (g h : Nat) (hc : (s.thread g h).run.clear) : Same s (s.stopDue g h) := by
  have k := dropFences_calm s g h
  obtain ⟨h1, h2⟩ := k.clear g h hc
  refine k.toSame.trans ?_
  unfold State.stopDue; dsimp only
  generalize s.dropFences g h = u at h1 h2 ⊢
  rw [h1]
  refine Same.ite _ (Same.refl u) ?_
  refine Same.ite _ (debugHalt_same u g h h2) ?_
  refine Same.ite _ (stopThread_same u g h h2) ?_
  exact Same.ite _ (Same.refl u) ((stopThread_same u g h h2).trans (noteDebt_same _ _))

theorem noteDebt_islands (s : State) (r : Nat) : (s.noteDebt r).islands = s.islands := by
  unfold State.noteDebt; dsimp only; split <;> rfl

theorem noteDebt_thread (s : State) (r g h : Nat) : (s.noteDebt r).thread g h = s.thread g h := by
  unfold State.noteDebt; dsimp only; split <;> rfl

theorem debugHalt_report (s : State) (g h : Nat) (hr : (s.thread g h).run.stop.report = none) :
    ((s.debugHalt g h).thread g h).run.stop.report = none := by
  unfold State.debugHalt
  split
  · exact hr
  · split
    · rw [State.thread_modThread_self]; exact hr
    · rw [noteDebt_thread, State.thread_modThread_self]
      show ((s.stopThread g h).thread g h).run.stop.report = none
      rw [stopThread_self]; exact stopOne_report s g h hr

/-- A thread that owes nothing owes no report after the boundary. -/
theorem stopDue_report (s : State) (g h : Nat) (hc : (s.thread g h).run.clear) : ((s.stopDue g h).thread g h).run.stop.report = none := by
  obtain ⟨h1, h2⟩ := (dropFences_calm s g h).clear g h hc
  unfold State.stopDue; dsimp only
  generalize s.dropFences g h = u at h1 h2 ⊢
  rw [h1]
  have e : ((u.stopThread g h).thread g h).run.stop.report = none := by rw [stopThread_self]; exact stopOne_report u g h h2
  split
  · exact h2
  · dsimp only
    split
    · exact debugHalt_report u g h h2
    · split
      · exact e
      · split
        · exact h2
        · rw [noteDebt_thread]; exact e

theorem askStop_same (s : State) (g h : Nat) (f : StopReq → StopReq) (hc : (s.thread g h).run.clear)
    (hf : ∀ q : StopReq, (f q).report = q.report) : Same s (s.askStop g h f) := by
  unfold State.askStop
  refine (Same.modThread s g h _ ?_).trans (stopDue_same _ g h ?_)
  · split <;> rfl
  · rw [State.thread_modThread_self]
    split
    · exact hc
    · exact ⟨hc.1, (hf _).trans hc.2⟩

theorem forward_calm (s : State) (g : Nat) (w : FwdWord) : Calm s (s.forward g w) := by
  unfold State.forward
  split
  · exact Calm.foldl _ (fun s m => Calm.modThread s m 0 _ rfl rfl rfl id) _ _
  · exact Calm.refl s

theorem stepDone_same (s : State) (g h : Nat) (hr : (s.thread g h).run.stop.report = none) : Same s (s.stepDone g h) := by
  unfold State.stepDone; split
  · exact debugHalt_same s g h hr
  · exact Same.refl s

theorem followed_r (t : Thread) (n : Nat) : (t.followed n).r = t.r := by
  unfold Thread.followed
  split
  · dsimp only; split
    · split <;> rfl
    · rfl
  · rfl

theorem followed_pend (t : Thread) (n : Nat) : (t.followed n).run.pend = t.run.pend := by
  unfold Thread.followed
  split
  · dsimp only; split
    · split <;> rfl
    · rfl
  · rfl

theorem followed_clear (t : Thread) (n : Nat) (h : t.run.clear) : (t.followed n).run.clear := by
  unfold Thread.followed
  split
  · dsimp only; split
    · split <;> exact h
    · exact h
  · exact h

/-! Waiting -/

theorem forwardAtIssue_calm (s : State) : Calm s s.forwardAtIssue := by
  unfold State.forwardAtIssue; dsimp only; split
  · exact (forward_calm s _ _).trans (Calm.modThread _ _ _ _ rfl rfl rfl id)
  · exact Calm.refl s

/-- The current thread after bookkeeping owes as little as before. -/
theorem Calm.me {s t : State} (a : Calm s t) (h : s.me.run.clear) : (t.thread t.focus.tile t.focus.thread).run.clear := by
  rw [a.focus]; exact a.clear _ _ h

theorem waitHere_same (s : State) (h : s.me.run.clear) : Same s s.waitHere := by
  unfold State.waitHere
  have a := (forwardAtIssue_calm s).trans
    (Calm.modThread s.forwardAtIssue s.forwardAtIssue.focus.tile s.forwardAtIssue.focus.thread
      (fun t => t.modRun (fun r => { r with wait := none })) rfl rfl rfl id)
  exact a.toSame.trans (stopDue_same _ _ _ (a.clear _ _ h))

theorem sleep_same (s : State) (k a v : Nat) (h : s.me.run.clear) : Same s (s.sleep k a v) := by
  unfold State.sleep; dsimp only
  have c := (forwardAtIssue_calm s).trans
    (Calm.modThread s.forwardAtIssue s.forwardAtIssue.focus.tile s.forwardAtIssue.focus.thread
      (fun t => t.modRun (fun r => { r with ts := .sleeping, wait := (match r.wait with
        | some w => some w
        | none => some ⟨k, a, v, s.forwardAtIssue.now⟩) })) rfl rfl rfl id)
  exact c.toSame.trans (stopDue_same _ _ _ (by
    have f1 := (forwardAtIssue_calm s).focus
    have x := c.clear s.focus.tile s.focus.thread h
    rw [← f1] at x
    exact x))

theorem wake_r (t : Thread) : t.wake.r = t.r := rfl

/-! Messages -/

theorem wfiWake_calm (s : State) (g h : Nat) : Calm s (s.modThread g h Thread.wfiWake) := by
  refine Calm.modThread _ _ _ _ ?_ ?_ ?_ ?_ <;>
  · unfold Thread.wfiWake; split
    · split <;> first | rfl | exact id
    · first | rfl | exact id

theorem deliver_calm (s : State) (m : Msg) : Calm s (s.deliver m) := by
  unfold State.deliver; dsimp only
  generalize (if isTileHome (s.forwarded m).dstHome = true then _ else s.forwarded m : Msg) = m'
  refine Calm.trans (t := s.modHome m'.dstHome (fun h => { h with inbox := h.inbox ++ [m'] })) (Calm.modHome s _ _) ?_
  exact Calm.ite _ ((wfiWake_calm _ _ _).trans (wfiWake_calm _ _ _)) (Calm.refl _)

theorem arrive_calm (s : State) (g port : Nat) (esc : Bool) (m : Msg) : Calm s (s.arrive g port esc m) := Calm.modRouter s g _

theorem enqueue_calm (s : State) (h : Nat) (m : Msg) : Calm s (s.enqueue h m) := by
  unfold State.enqueue; dsimp only; split
  · exact deliver_calm s _
  · split
    · exact arrive_calm s _ _ _ _
    · exact Calm.modHome s _ _

theorem notice_calm (s : State) (i code name : Nat) : Calm s (s.notice i code name) := Calm.modIsland s i _

theorem injectOr_calm (s : State) (h : Nat) (m : Msg) : Calm s (s.injectOr h m) := by
  unfold State.injectOr; split
  · exact enqueue_calm _ _ _
  · exact notice_calm _ _ _ _

theorem refuseBare_calm (s : State) (h : Nat) (m : Msg) (reason : Nat) : Calm s (s.refuseBare h m reason) := by
  unfold State.refuseBare; dsimp only
  refine Calm.trans (notice_calm s (islandAt h) reason m.dst) ?_
  generalize s.notice (islandAt h) reason m.dst = u
  split
  · exact Calm.refl u
  · split
    · exact Calm.refl u
    · exact injectOr_calm _ _ _

theorem injectBare_calm (s : State) (h : Nat) (m : Msg) : Calm s (s.injectBare h m) := by
  unfold State.injectBare; split
  · exact enqueue_calm _ _ _
  · exact refuseBare_calm _ _ _ _

theorem wakeQuiet_calm (s : State) (rt : Nat) (w : Nat × Nat × Nat) (status : Nat) : Calm s (s.wakeQuiet rt w status) :=
  injectBare_calm _ _ _

theorem wakeWatchers_calm (s : State) (rt d status : Nat) (p : Nat → Bool) : Calm s (s.wakeWatchers rt d status p) :=
  Calm.trans (Calm.modCluster s _ _) (Calm.foldl _ (fun s _ => wakeQuiet_calm s _ _ _) _ _)

theorem domLost_calm (s : State) (rt d : Nat) : Calm s (s.domLost rt d) :=
  Calm.trans (Calm.modCluster s _ _) (Calm.trans (wakeWatchers_calm _ _ _ _ _) (notice_calm _ _ _ _))

theorem loseWeight_calm (s : State) (r d : Nat) : Calm s (s.loseWeight r d) := by
  unfold State.loseWeight State.loseDomain; dsimp only; split
  · exact Calm.refl s
  · split
    · exact domLost_calm _ _ _
    · exact Calm.refl s

theorem returnWeight_calm (s : State) (h : Nat) (m : Msg) : Calm s (s.returnWeight h m) := by
  unfold State.returnWeight; dsimp only; split
  · split
    · exact loseWeight_calm _ _ _
    · split
      · exact enqueue_calm _ _ _
      · exact (loseWeight_calm _ _ _).trans (notice_calm _ _ _ _)
  · exact Calm.refl s

theorem refuse_calm (s : State) (h : Nat) (m : Msg) (reason : Nat) : Calm s (s.refuse h m reason) :=
  (returnWeight_calm s h m).trans (refuseBare_calm _ _ _ _)

theorem inject_calm (s : State) (h : Nat) (m : Msg) : Calm s (s.inject h m) := by
  unfold State.inject; dsimp only; split
  · exact enqueue_calm _ _ _
  · exact refuse_calm _ _ _ _

theorem nextSeq_calm (s : State) (g h : Nat) : Calm s (s.nextSeq g h) := Calm.modThread s g h _ rfl rfl rfl id

theorem sendFrom_calm (s : State) (g h dst dstHome vc kind len : Nat) (lv : Bool) (lexp aux handler : Nat) (body : Payload) :
    Calm s (s.sendFrom g h dst dstHome vc kind len lv lexp aux handler body) :=
  (nextSeq_calm s g h).trans (inject_calm _ _ _)

theorem sendHw_calm (s : State) (h dst dstHome vc kind len : Nat) (lv : Bool) (lexp region aux handler : Nat) (body : Payload) :
    Calm s (s.sendHw h dst dstHome vc kind len lv lexp region aux handler body) := inject_calm _ _ _

theorem answer_calm (s : State) (h dst dstHome seq sthr len : Nat) (body : Payload) :
    Calm s (s.answer h dst dstHome seq sthr len body) := inject_calm _ _ _

theorem raise_calm (s : State) (c : Nat) (e : PEvent) : Calm s (s.raise c e) := Calm.modCluster s c _

theorem signalIdle_calm (s : State) (g h : Nat) : Calm s (s.signalIdle g h) := by
  unfold State.signalIdle; dsimp only; split
  · exact raise_calm _ _ _
  · exact Calm.refl s

/-! Stores -/

/-- A change of a tile that leaves its threads' registers, repeats, pending writes and what waits for their boundaries, its own registers and
its latches alone. -/
def CalmTile (t u : Tile) : Prop :=
  (∀ h, (u.thread h).r = (t.thread h).r ∧ (u.thread h).run.rep = (t.thread h).run.rep ∧ (u.thread h).run.pend = (t.thread h).run.pend ∧
    ((t.thread h).run.clear → (u.thread h).run.clear)) ∧ u.r = t.r ∧ u.c = t.c

theorem CalmTile.trans {t u v : Tile} (a : CalmTile t u) (b : CalmTile u v) : CalmTile t v :=
  ⟨fun h => ⟨(b.1 h).1.trans (a.1 h).1, (b.1 h).2.1.trans (a.1 h).2.1, (b.1 h).2.2.1.trans (a.1 h).2.2.1,
    fun x => (b.1 h).2.2.2 ((a.1 h).2.2.2 x)⟩, b.2.1.trans a.2.1, b.2.2.trans a.2.2⟩

theorem CalmTile.modRun (t : Tile) (h : Nat) (f : Run → Run) (h1 : ∀ r, (f r).rep = r.rep) (h2 : ∀ r, (f r).pend = r.pend)
    (h3 : ∀ r : Run, r.clear → (f r).clear) : CalmTile t (t.modThread h (fun th => th.modRun f)) := by
  refine ⟨fun h' => ?_, rfl, rfl⟩
  simp only [Tile.thread_modThread]
  split
  · subst_vars; exact ⟨rfl, h1 _, h2 _, h3 _⟩
  · exact ⟨rfl, rfl, rfl, id⟩

theorem Calm.ofTile (s : State) (g : Nat) (f : Tile → Tile) (h : CalmTile (s.tile g) (f (s.tile g))) : Calm s (s.modTile g f) := by
  refine ⟨Same.modTile s g _ (fun k => (h.1 k).1) h.2.1 (by rw [h.2.2]), fun g' h' => ?_, fun g' h' => ?_, fun g' h' => ?_⟩
  · simp only [State.thread, State.tile_modTile]; split
    · subst_vars; exact (h.1 h').2.1
    · rfl
  · simp only [State.thread, State.tile_modTile]; split
    · subst_vars; exact (h.1 h').2.2.1
    · rfl
  · simp only [State.thread, State.tile_modTile]; split
    · subst_vars; exact (h.1 h').2.2.2
    · exact id

theorem markStale_calm (s : State) (g addr n wg wh : Nat) : Calm s (s.markStale g addr n wg wh) := by
  unfold State.markStale
  refine Calm.foldl _ (fun s k => ?_) _ _
  refine Calm.ofTile s g _ ?_
  have one : ∀ (t : Tile) h, CalmTile t (t.modThread h (fun th => if heldAhead th.r.pc (addr / 4 + k) then
      th.modRun (·.markStale (addr / 4 + k) (s.mem.readNat (padKey g (4 * (addr / 4 + k))) 4) s.perf (wg == g && wh == h)) else th)) := fun t h => by
    refine ⟨fun h' => ?_, rfl, rfl⟩
    simp only [Tile.thread_modThread]
    split
    · subst_vars; split
      · exact ⟨rfl, rfl, rfl, id⟩
      · exact ⟨rfl, rfl, rfl, id⟩
    · exact ⟨rfl, rfl, rfl, id⟩
  exact ((one _ 2).trans (one _ 1)).trans (one _ 0)

theorem keepOld_calm (s : State) (h addr n : Nat) : Calm s (s.keepOld h addr n) := by
  unfold State.keepOld
  refine Calm.foldl _ (fun s k => ?_) _ _
  exact ⟨⟨rfl, fun _ _ => rfl, fun _ => rfl, fun _ => rfl, rfl, rfl, rfl⟩, fun _ _ => rfl, fun _ _ => rfl, fun _ _ => id⟩

theorem noteWrite_calm (s : State) (h addr n : Nat) : Calm s (s.noteWrite h addr n) := by
  unfold State.noteWrite
  refine Calm.foldl _ (fun s k => ?_) _ _
  exact ⟨⟨rfl, fun _ _ => rfl, fun _ => rfl, fun _ => rfl, rfl, rfl, rfl⟩, fun _ _ => rfl, fun _ _ => rfl, fun _ _ => id⟩

theorem wakeWatch_calm (s : State) (h : Nat) (w : Watch) : Calm s (s.wakeWatch h w) := inject_calm _ _ _

theorem touched_calm (s : State) (h addr n : Nat) : Calm s (s.touched h addr n) := by
  unfold State.touched
  exact (Calm.modHome s h _).trans (Calm.foldl _ (fun s w => wakeWatch_calm s h w) _ _)

/-- A store at a home writes its bytes and nothing else that a program sees. -/
theorem storeAt_calm (s : State) (h addr : Nat) (bs : List Byte) (wg wh : Nat) :
    Calm { s with mem := s.mem.writeBytes (homeKey h addr) bs } (s.storeAt h addr bs wg wh) := by
  unfold State.storeAt
  split
  · rename_i hb
    rw [List.isEmpty_iff.1 hb]
    exact Calm.refl s
  · dsimp only
    have h1 : Calm s (if isTileHome h then s.markStale h addr bs.length wg wh else s.keepOld h addr bs.length) :=
      Calm.ite _ (markStale_calm _ _ _ _ _ _) (keepOld_calm _ _ _ _)
    generalize hu : (if isTileHome h = true then s.markStale h addr bs.length wg wh else s.keepOld h addr bs.length) = u at h1 ⊢
    refine Calm.trans (t := { u with mem := u.mem.writeBytes (homeKey h addr) bs, perf := u.perf + 1 }) ?_
      ((noteWrite_calm _ _ _ _).trans (touched_calm _ _ _ _))
    exact ⟨⟨h1.focus, h1.thr, h1.tregs, h1.reps, by simp only [h1.mem], h1.wafers, h1.now⟩, h1.rep, h1.pend, h1.clear⟩

/-! The end of an instruction -/

theorem switchPoint_none (s : State) (g h : Nat) (hp : (s.thread g h).run.pend = []) : s.switchPoint g h = s := by
  unfold State.switchPoint; simp [Run.livePend, hp]

/-- A step that changes one thread's registers and then only bookkeeping. -/
theorem Done.of_modThread {s t : State} (f : Thread → Thread) (h : Same (s.modThread s.focus.tile s.focus.thread f) t) :
    Done s t (f s.me).r s.myTile.r s.mem := by
  refine ⟨h.focus, ?_, ?_, ?_, ?_, ?_, h.mem, h.wafers, h.now⟩
  · rw [State.me, h.focus, h.thr]; simp [State.me]
  · intro g k hk
    rw [h.thr, State.thread_modThread, if_neg]
    rintro ⟨a, b⟩; exact hk ⟨a.symm, b.symm⟩
  · rw [State.myTile, h.focus, h.tregs]; simp only [State.modThread_focus, State.tile_modThread, if_true]; rfl
  · intro g hg; rw [h.tregs, State.tile_modThread, if_neg (Ne.symm hg)]
  · intro g; rw [h.reps, State.tile_modThread]; split
    · subst_vars; rfl
    · rfl

/-- How an instruction ends: the thread as it stands after it with one more instruction counted, and nothing else that a program
sees, provided no switch point commits a long-latency write and no trap or report waits for the boundary. -/
theorem finish_done (s : State) (after : Thread) (sb : Bool)
    (hs : after.run.pend = [] ∨ (sb = false ∧ s.me.run.rep = none)) (hc : after.run.clear) :
    Done s (s.finish after sb) after.r.counted s.myTile.r s.mem := by
  let g := s.focus.tile
  let h := s.focus.thread
  let before := s.thread g h
  let mid := before.run.rep.isSome && after.r.loop.repa
  let n := if before.run.rep.isSome then (if mid then 0 else 2) else 1
  let th : Thread := (after.retired.modRun (fun r =>
    { r with fwdDone := mid && before.run.fwdDone, rep := if mid then before.run.rep.map RepRun.next else none })).followed n
  let s1 := s.modThread g h (fun _ => th)
  let s2 := if h = 0 ∧ before.run.fwdDone = false ∧ before.run.rep = none
    then s1.forward g ⟨s.focus.word, pcOff before.r.pc, pcOff after.r.pc⟩ else s1
  let sp := match before.run.rep with
    | some r => r.sW && !mid
    | none => sb
  have e : s.finish after sb = ((if sp then s2.switchPoint g h else s2).stopDue g h).stepDone g h := rfl
  have h2 : Calm s1 s2 := Calm.ite _ (forward_calm _ _ _) (Calm.refl _)
  have hpend : (s2.thread g h).run.pend = after.run.pend := by
    rw [h2.pend]
    simp only [s1, State.thread_modThread_self, th, followed_pend]; rfl
  have hclear : (s2.thread g h).run.clear := h2.clear _ _ (by
    simp only [s1, State.thread_modThread_self, th]; exact followed_clear _ _ hc)
  have h3 : (if sp then s2.switchPoint g h else s2) = s2 := by
    rcases hs with hs | ⟨hs1, hs2⟩
    · split
      · exact switchPoint_none _ _ _ (hpend.trans hs)
      · rfl
    · have : sp = false := by
        have : before.run.rep = none := hs2
        simp only [sp, this, hs1]
      rw [this]; rfl
  have h4 := (h2.toSame.trans (stopDue_same _ g h hclear)).trans (stepDone_same _ g h (stopDue_report _ g h hclear))
  rw [h3] at e
  rw [← e] at h4
  have h5 := Done.of_modThread (s := s) (fun _ => th) h4
  have hr : th.r = after.r.counted := by
    simp only [th, followed_r]; rfl
  rw [hr] at h5
  exact h5

theorem forward_run (s : State) (g h' : Nat) (w : FwdWord) (hg : ∀ m ∈ s.attachedOf g, m ≠ g) :
    ((s.forward g w).thread g h').run = (s.thread g h').run := by
  have key : ∀ (l : List Nat) (s : State), (∀ m ∈ l, m ≠ g) → ((l.foldl (fun s m => s.modThread m 0 (fun t => t.modRun (fun r =>
      { r with gather := { r.gather with buf := r.gather.buf ++ [w] } }))) s).thread g h').run = (s.thread g h').run := by
    intro l
    induction l with
    | nil => intro s _; rfl
    | cons m r ih =>
      intro s hm
      rw [List.foldl_cons, ih _ (fun x hx => hm x (List.mem_cons_of_mem _ hx)), State.thread_modThread,
        if_neg (fun q => hm m (List.mem_cons_self ..) q.1)]
  unfold State.forward
  split
  · exact key _ s hg
  · rfl

theorem forward_homes (s : State) (g : Nat) (w : FwdWord) : (s.forward g w).homes = s.homes := by
  have key : ∀ (l : List Nat) (s : State), (l.foldl (fun s m => s.modThread m 0 (fun t => t.modRun (fun r =>
      { r with gather := { r.gather with buf := r.gather.buf ++ [w] } }))) s).homes = s.homes := by
    intro l
    induction l with
    | nil => intro s; rfl
    | cons m r ih => intro s; rw [List.foldl_cons, ih]; rfl
  unfold State.forward
  split
  · exact key _ s
  · rfl

/-- What the end of a fence's order changes of a thread's run: the orders themselves, and what its reads and its o refresh points are known
to have found. -/
def Run.fenceEnds (q r : Run) : Prop :=
  ∃ fe ac oa op os, r = { q with fences := fe, acq := ac, oacq := oa, oports := op, oseen := os }

theorem Run.fenceEnds_trans {a b c : Run} (x : a.fenceEnds b) (y : b.fenceEnds c) : a.fenceEnds c := by
  obtain ⟨_, _, _, _, _, rfl⟩ := x
  obtain ⟨f, g, h, i, j, rfl⟩ := y
  exact ⟨f, g, h, i, j, rfl⟩

theorem fenceDone_quiet (s : State) (g h p q sc : Nat) : (s.fenceDone g h p q sc).homes = s.homes ∧
    (s.thread g h).run.fenceEnds ((s.fenceDone g h p q sc).thread g h).run := by
  unfold State.fenceDone
  have a : (s.fenceReads g h p sc).homes = s.homes ∧ (s.thread g h).run.fenceEnds ((s.fenceReads g h p sc).thread g h).run := by
    unfold State.fenceReads; dsimp only; split
    · exact ⟨rfl, _, _, _, _, _, rfl⟩
    · exact ⟨rfl, by rw [State.thread_modThread_self]; exact ⟨_, _, _, _, _, rfl⟩⟩
  generalize s.fenceReads g h p sc = u at a
  have b : (u.fenceRefresh g h q sc).homes = u.homes ∧ (u.thread g h).run.fenceEnds ((u.fenceRefresh g h q sc).thread g h).run := by
    unfold State.fenceRefresh; split
    · exact ⟨rfl, _, _, _, _, _, rfl⟩
    · split
      · exact ⟨rfl, by rw [State.thread_modThread_self]; exact ⟨_, _, _, _, _, rfl⟩⟩
      · exact ⟨rfl, by rw [State.thread_modThread_self]; exact ⟨_, _, _, _, _, rfl⟩⟩
  exact ⟨b.1.trans a.1, Run.fenceEnds_trans a.2 b.2⟩

theorem dropFences_quiet (s : State) (g h : Nat) : (s.dropFences g h).homes = s.homes ∧
    (s.thread g h).run.fenceEnds ((s.dropFences g h).thread g h).run := by
  have fold : ∀ (l : List FenceOrder) (u : State),
      (l.foldl (fun s f => s.fenceDone g h f.pred f.succ f.scope) u).homes = u.homes ∧
      (u.thread g h).run.fenceEnds ((l.foldl (fun s f => s.fenceDone g h f.pred f.succ f.scope) u).thread g h).run := by
    intro l
    induction l with
    | nil => intro u; exact ⟨rfl, _, _, _, _, _, rfl⟩
    | cons f r ih =>
      intro u
      obtain ⟨a1, a2⟩ := fenceDone_quiet u g h f.pred f.succ f.scope
      obtain ⟨b1, b2⟩ := ih (u.fenceDone g h f.pred f.succ f.scope)
      exact ⟨b1.trans a1, Run.fenceEnds_trans a2 b2⟩
  unfold State.dropFences; split
  · exact ⟨rfl, _, _, _, _, _, rfl⟩
  · dsimp only
    obtain ⟨a, b⟩ := fold ((s.thread g h).run.fences.filter (fun f => !s.unmet g h f))
      (s.modThread g h (fun t => t.modRun (fun r => { r with fences := s.openFences g h })))
    refine ⟨a, Run.fenceEnds_trans ?_ b⟩
    rw [State.thread_modThread_self]
    exact ⟨_, _, _, _, _, rfl⟩

/-- With no stop asked for and no trap due, the boundary ends the fulfilled orders of fences alone. -/
theorem stopDue_quiet (s : State) (g h : Nat) (h1 : (s.thread g h).run.stop = {}) (h2 : (s.thread g h).run.due = []) :
    s.stopDue g h = s.dropFences g h := by
  obtain ⟨_, _, _, _, _, _, hf⟩ := dropFences_quiet s g h
  have e1 : ((s.dropFences g h).thread g h).run.stop = {} := by rw [hf]; exact h1
  have e2 : ((s.dropFences g h).thread g h).run.due = [] := by rw [hf]; exact h2
  have e3 : ((s.dropFences g h).thread g h).run.ownStop = {} := by unfold Run.ownStop; rw [e1]; split <;> rfl
  unfold State.stopDue; dsimp only
  generalize s.dropFences g h = u at e1 e2 e3 ⊢
  rw [e2, e3, e1]
  split <;> simp

/-- Where no stop is asked for, the thread's run after an instruction is that of the instruction with its waits over, and no reservation
or watch falls. -/
theorem finish_quiet (s : State) (after : Thread) (sb : Bool) (hs : after.run.pend = [] ∨ (sb = false ∧ s.me.run.rep = none))
    (h1 : after.run.stop = {}) (h2 : after.run.dbg.stepping = false) (h0 : after.run.due = []) :
    (s.finish after sb).homes = s.homes ∧ ∃ ga b rp st, Run.fenceEnds
      { after.run.clearWaits with dbg := { after.run.dbg with atBrk := false }, fwdDone := b, rep := rp, stale := st, gather := ga }
      (s.finish after sb).me.run := by
  have hfoc := (finish_done s after sb hs ⟨h0, by rw [h1]⟩).focus
  let g := s.focus.tile
  let h := s.focus.thread
  let before := s.thread g h
  let mid := before.run.rep.isSome && after.r.loop.repa
  let n := if before.run.rep.isSome then (if mid then 0 else 2) else 1
  let b := mid && before.run.fwdDone
  let rp := if mid then before.run.rep.map RepRun.next else none
  let st := after.run.stale.filter (fun p => heldAhead after.r.pc p.1)
  let th : Thread := (after.retired.modRun (fun r => { r with fwdDone := b, rep := rp })).followed n
  let s1 := s.modThread g h (fun _ => th)
  let s2 := if h = 0 ∧ before.run.fwdDone = false ∧ before.run.rep = none
    then s1.forward g ⟨s.focus.word, pcOff before.r.pc, pcOff after.r.pc⟩ else s1
  let sp := match before.run.rep with
    | some r => r.sW && !mid
    | none => sb
  have e : s.finish after sb = ((if sp then s2.switchPoint g h else s2).stopDue g h).stepDone g h := rfl
  have r1 : (s1.thread g h).run = th.run := by simp only [s1, State.thread_modThread_self]
  have r2 : (s2.thread g h).run = th.run := by
    simp only [s2]; split
    · rw [forward_run _ _ _ _ (fun m hm => attachedOf_ne _ _ _ hm), r1]
    · exact r1
  have hp : th.run.pend = after.run.pend := followed_pend _ _
  have s3 : (if sp then s2.switchPoint g h else s2) = s2 := by
    rcases hs with hs | ⟨hs1, hs2⟩
    · split
      · exact switchPoint_none _ _ _ (by rw [r2, hp]; exact hs)
      · rfl
    · have : sp = false := by
        have : before.run.rep = none := hs2
        simp only [sp, this, hs1]
      rw [this]; rfl
  obtain ⟨ga, hga⟩ : ∃ ga, th.run =
      { after.run.clearWaits with dbg := { after.run.dbg with atBrk := false }, fwdDone := b, rep := rp, stale := st, gather := ga } := by
    simp only [th]
    unfold Thread.followed
    split
    · dsimp only; split
      · split
        · exact ⟨_, rfl⟩
        · exact ⟨_, rfl⟩
      · exact ⟨_, rfl⟩
    · exact ⟨_, rfl⟩
  obtain ⟨d1, d2⟩ := dropFences_quiet s2 g h
  rw [r2, hga] at d2
  have s4 : s2.stopDue g h = s2.dropFences g h := stopDue_quiet _ _ _ (by rw [r2, hga]; exact h1) (by rw [r2, hga]; exact h0)
  have s5 : (s2.dropFences g h).stepDone g h = s2.dropFences g h := by
    unfold State.stepDone
    have : ((s2.dropFences g h).thread g h).run.dbg.stepping = false := by
      obtain ⟨_, _, _, _, _, e⟩ := d2
      rw [e]; exact h2
    rw [this]; rfl
  have fin : s.finish after sb = s2.dropFences g h := by rw [e, s3, s4, s5]
  rw [fin] at hfoc ⊢
  refine ⟨?_, ga, b, rp, st, ?_⟩
  · rw [d1]; simp only [s2]; split
    · rw [forward_homes]; rfl
    · rfl
  · rw [State.me, hfoc]; exact d2

theorem Done.refl (s : State) : Done s s s.me.r s.myTile.r s.mem :=
  ⟨rfl, rfl, fun _ _ _ => rfl, rfl, fun _ _ => rfl, fun _ => rfl, rfl, rfl, rfl⟩

/-- Bookkeeping after a step changes nothing of what the step did. -/
theorem Done.same {s u t : State} {r : Regs} {tr : TileRegs} {m : Memory} (a : Done s u r tr m) (b : Same u t) : Done s t r tr m := by
  refine ⟨b.focus.trans a.focus, ?_, fun g h hk => (b.thr g h).trans (a.others g h hk), ?_,
    fun g hg => (b.tregs g).trans (a.tiles g hg), fun g => (b.reps g).trans (a.reps g), b.mem.trans a.mem,
    b.wafers.trans a.wafers, b.now.trans a.now⟩
  · rw [State.me, b.focus, b.thr]; exact a.mine
  · rw [State.myTile, b.focus, b.tregs]; exact a.mytile

/-- A step in two parts. -/
theorem Done.then {s u t : State} {r r' : Regs} {tr tr' : TileRegs} {m m' : Memory} (a : Done s u r tr m) (b : Done u t r' tr' m') :
    Done s t r' tr' m' := by
  have hf := a.focus
  refine ⟨b.focus.trans hf, b.mine, fun g h hk => ?_, b.mytile, fun g hg => ?_, fun g => (b.reps g).trans (a.reps g), b.mem,
    b.wafers.trans a.wafers, b.now.trans a.now⟩
  · exact (b.others g h (by rw [hf]; exact hk)).trans (a.others g h hk)
  · exact (b.tiles g (by rw [hf]; exact hg)).trans (a.tiles g hg)

/-- A change of the current thread alone. -/
theorem Done.modMe (s : State) (f : Thread → Thread) : Done s (s.modMe f) (f s.me).r s.myTile.r s.mem :=
  Done.of_modThread f (Same.refl _)

/-- A change of the registers of the current tile. -/
theorem Done.modTileRegs (s : State) (f : TileRegs → TileRegs) :
    Done s (s.modMyTile (fun t => t.modRegs f)) s.me.r (f s.myTile.r) s.mem := by
  refine ⟨rfl, ?_, fun g h _ => ?_, ?_, fun g hg => ?_, fun g => ?_, rfl, rfl, rfl⟩
  · simp only [State.me, State.thread, State.modMyTile, State.tile_modTile]; simp [State.modTile_focus]
  · simp only [State.thread, State.modMyTile, State.tile_modTile]; split
    · subst_vars; rfl
    · rfl
  · simp [State.myTile, State.modMyTile]
  · simp only [State.modMyTile, State.tile_modTile]; rw [if_neg (Ne.symm hg)]
  · simp only [State.modMyTile, State.tile_modTile]; split
    · subst_vars; rfl
    · rfl

/-- A change of memory. -/
theorem Done.setMem (s : State) (m : Memory) : Done s { s with mem := m } s.me.r s.myTile.r m :=
  ⟨rfl, rfl, fun _ _ _ => rfl, rfl, fun _ _ => rfl, fun _ => rfl, rfl, rfl, rfl⟩

theorem passEdge_r (t : Thread) (off : Nat) (q : Run) : (t.passEdge off).r = (Thread.passEdge { r := t.r, run := q } off).r := by
  unfold Thread.passEdge; dsimp only; split
  · split <;> rfl
  · rfl

/-- What comes next in sequence depends on a thread's registers and the repeat in progress alone. -/
theorem seqNext_r (t : Thread) : t.seqNext.r.counted = t.r.after t.run.rep := by
  unfold Regs.after Thread.seqNext
  cases h : t.run.rep with
  | none => dsimp only; rw [passEdge_r]
  | some q =>
    dsimp only
    by_cases hc : t.r.loop.repdone + 1 < q.count
    · simp only [hc, if_true]
    · simp only [hc, if_false]; rw [passEdge_r]

theorem seqNext_run (t : Thread) : t.seqNext.run = t.run := by
  have hp : ∀ (t : Thread) off, (t.passEdge off).run = t.run := fun t off => by
    unfold Thread.passEdge; dsimp only; split
    · split <;> rfl
    · rfl
  unfold Thread.seqNext; split
  · dsimp only; split
    · rfl
    · rw [hp]
  · rw [hp]

/-- Completion in sequence. -/
theorem retire_done (s : State) (sb : Bool) (hs : s.settled sb) :
    Done s (s.retire sb) (s.me.r.after s.me.run.rep) s.myTile.r s.mem := by
  have h := finish_done s s.me.seqNext sb (by rw [seqNext_run]; exact hs.1) (by rw [seqNext_run]; exact hs.2)
  rw [seqNext_r] at h
  exact h

/-- Completion with a transfer to an offset of the same scratchpad. -/
theorem retireTo_done (s : State) (off : Nat) (hs : s.settled false) :
    Done s (s.retireTo off) (s.me.r.jumped off) s.myTile.r s.mem := finish_done s _ false hs.1 hs.2

/-! An instruction in parts -/

/-- Part of an instruction: what it has done so far, with the repeat in progress, the absence of pending writes and of what waits for the
boundary as before. -/
structure Mid (s u : State) (r : Regs) (tr : TileRegs) (m : Memory) : Prop extends Done s u r tr m where
  rep : u.me.run.rep = s.me.run.rep
  pend : s.me.run.pend = [] → u.me.run.pend = []
  clear : s.me.run.clear → u.me.run.clear

theorem Mid.refl (s : State) : Mid s s s.me.r s.myTile.r s.mem := ⟨Done.refl s, rfl, id, id⟩

theorem Mid.settled {s u : State} {r : Regs} {tr : TileRegs} {m : Memory} (a : Mid s u r tr m) {sb : Bool} (h : s.settled sb) :
    u.settled sb := by
  refine ⟨?_, a.clear h.2⟩
  rcases h.1 with h | ⟨h1, h2⟩
  · exact .inl (a.pend h)
  · exact .inr ⟨h1, a.rep.trans h2⟩

theorem Mid.then {s u t : State} {r r' : Regs} {tr tr' : TileRegs} {m m' : Memory} (a : Mid s u r tr m) (b : Mid u t r' tr' m') :
    Mid s t r' tr' m' := ⟨a.toDone.then b.toDone, b.rep.trans a.rep, fun h => b.pend (a.pend h), fun h => b.clear (a.clear h)⟩

theorem Calm.mid {s u : State} (a : Calm s u) : Mid s u s.me.r s.myTile.r s.mem := by
  refine ⟨(Done.refl s).same a.toSame, ?_, fun h => ?_, fun h => a.me h⟩
  · rw [State.me, a.focus, a.rep]; rfl
  · rw [State.me, a.focus, a.pend]; exact h

theorem Mid.calm {s u t : State} {r : Regs} {tr : TileRegs} {m : Memory} (a : Mid s u r tr m) (b : Calm u t) : Mid s t r tr m := by
  have h := a.then b.mid
  rw [a.mine, a.mytile, a.mem] at h
  exact h

theorem Mid.modMe (s : State) (f : Thread → Thread) (h1 : (f s.me).run.rep = s.me.run.rep)
    (h2 : s.me.run.pend = [] → (f s.me).run.pend = []) (h3 : s.me.run.clear → (f s.me).run.clear) :
    Mid s (s.modMe f) (f s.me).r s.myTile.r s.mem :=
  ⟨Done.modMe s f, by rw [State.me_modMe, h1], fun h => by rw [State.me_modMe]; exact h2 h, fun h => by rw [State.me_modMe]; exact h3 h⟩

theorem Mid.putX (s : State) (n : Nat) (v : Word64) : Mid s (s.putX n v) (s.me.r.setX n v) s.myTile.r s.mem :=
  Mid.modMe s (·.putX n v) rfl (fun h => by simp [Thread.putX, Run.dropPend, h]) id

theorem Mid.modTileRegs (s : State) (f : TileRegs → TileRegs) :
    Mid s (s.modMyTile (fun t => t.modRegs f)) s.me.r (f s.myTile.r) s.mem := by
  have h : (s.modMyTile (fun t => t.modRegs f)).me = s.me := by
    simp only [State.me, State.thread, State.modMyTile, State.tile_modTile, State.modTile_focus, if_true]; rfl
  exact ⟨Done.modTileRegs s f, by rw [h], fun e => by rw [h]; exact e, fun e => by rw [h]; exact e⟩

theorem Mid.setMem (s : State) (m : Memory) : Mid s { s with mem := m } s.me.r s.myTile.r m := ⟨Done.setMem s m, rfl, id, id⟩

theorem Mid.storeAt (s : State) (h addr : Nat) (bs : List Byte) (wg wh : Nat) :
    Mid s (s.storeAt h addr bs wg wh) s.me.r s.myTile.r (s.mem.writeBytes (homeKey h addr) bs) :=
  (Mid.setMem s _).calm (storeAt_calm s h addr bs wg wh)

theorem Mid.retire {s u : State} {r : Regs} {tr : TileRegs} {m : Memory} (a : Mid s u r tr m) (sb : Bool) (h : s.settled sb) :
    Done s (u.retire sb) (r.after s.me.run.rep) tr m := by
  have e := a.toDone.then (retire_done u sb (a.settled h))
  rw [a.mine, a.mytile, a.mem, a.rep] at e
  exact e

theorem Mid.retireTo {s u : State} {r : Regs} {tr : TileRegs} {m : Memory} (a : Mid s u r tr m) (off : Nat) (h : s.settled false) :
    Done s (u.retireTo off) (r.jumped off) tr m := by
  have e := a.toDone.then (retireTo_done u off (a.settled h))
  rw [a.mytile, a.mem, a.mine] at e
  exact e

/-! Taking a trap -/

/-- A report posted: the latch, if free, and the island's ring; nothing else that a program sees but the report latches. -/
theorem postReport_frame (s : State) (g : Nat) (r : FaultRep) :
    (∀ g' h, ((s.postReport g r).thread g' h) = s.thread g' h) ∧ (∀ g', ((s.postReport g r).tile g').r = (s.tile g').r) ∧
    (s.postReport g r).mem = s.mem ∧ (s.postReport g r).focus = s.focus ∧
    (let i := s.policing (waferOf g * 256 + r.region) (islandOf g)
     ((s.postReport g r).island i).ring = (s.island i).ring ++ [r]) ∧
    (r.thread < 3 → ((s.tile g).c.reps.look r.thread {}).v = false →
      ((s.postReport g r).tile g).c.reps.look r.thread {} = r) := by
  unfold State.postReport
  refine ⟨fun g' h => ?_, fun g' => ?_, rfl, rfl, ?_, fun h1 h2 => ?_⟩
  · simp only [State.thread, State.tile_modIsland, State.tile_modTile]; split
    · subst_vars; rfl
    · rfl
  · simp only [State.tile_modIsland, State.tile_modTile]; split
    · subst_vars; rfl
    · rfl
  · exact congrArg Island.ring (State.island_modIsland_self _ _ _)
  · simp [State.tile_modTile_self, h1, h2]

/-- What stops and reports leave alone: every register, memory, every latch that holds a report; the rings only grow. -/
structure Told (s t : State) : Prop where
  focus : t.focus = s.focus
  thr : ∀ g h, (t.thread g h).r = (s.thread g h).r
  tregs : ∀ g, (t.tile g).r = (s.tile g).r
  mem : t.mem = s.mem
  latch : ∀ g h, ((s.tile g).c.reps.look h {}).v = true → (t.tile g).c.reps.look h {} = (s.tile g).c.reps.look h {}
  ring : ∀ i, ∃ l, (t.island i).ring = (s.island i).ring ++ l

theorem Told.trans {s t u : State} (a : Told s t) (b : Told t u) : Told s u := by
  refine ⟨b.focus.trans a.focus, fun g h => (b.thr g h).trans (a.thr g h), fun g => (b.tregs g).trans (a.tregs g), b.mem.trans a.mem,
    fun g h hv => ?_, fun i => ?_⟩
  · have e := a.latch g h hv
    exact (b.latch g h (by rw [e]; exact hv)).trans e
  · obtain ⟨l, hl⟩ := a.ring i
    obtain ⟨m, hm⟩ := b.ring i
    exact ⟨l ++ m, by rw [hm, hl, List.append_assoc]⟩

/-- Bookkeeping that posts nothing. -/
theorem Same.told {s t : State} (a : Same s t) (hi : t.islands = s.islands) : Told s t :=
  ⟨a.focus, a.thr, a.tregs, a.mem, fun g h _ => by rw [a.reps], fun i => ⟨[], by rw [List.append_nil]; unfold State.island; rw [hi]⟩⟩

theorem Told.refl (s : State) : Told s s := (Same.refl s).told rfl

theorem Told.ite {s t u : State} (c : Prop) [Decidable c] (a : Told s t) (b : Told s u) : Told s (if c then t else u) := by
  split <;> assumption

theorem Told.foldl {α : Type} (f : State → α → State) (hf : ∀ s a, Told s (f s a)) (l : List α) (s : State) : Told s (l.foldl f s) := by
  induction l generalizing s with
  | nil => exact Told.refl s
  | cons a r ih => exact (hf s a).trans (ih _)

theorem Told.modRun (s : State) (g h : Nat) (f : Thread → Run → Run) : Told s (s.modThread g h (fun t => t.modRun (f t))) :=
  (Same.modRun s g h f).told rfl

theorem postReport_told (s : State) (g : Nat) (r : FaultRep) : Told s (s.postReport g r) := by
  obtain ⟨p1, p2, p3, p4, _, _⟩ := postReport_frame s g r
  refine ⟨p4, fun g' h' => by rw [p1], p2, p3, fun g' h' hv => ?_, fun i => ?_⟩
  · simp only [State.postReport, State.tile_modIsland, State.tile_modTile]
    split
    · subst_vars
      simp only [Tile.modCtl_c]
      split
      · rename_i hc
        rw [Tab.look_put, if_neg]
        intro e
        subst e
        rw [hc.2] at hv
        exact absurd hv (by simp)
      · rfl
    · rfl
  · unfold State.postReport
    simp only [State.island_modIsland]
    split
    · subst_vars; exact ⟨[r], rfl⟩
    · exact ⟨[], by rw [List.append_nil]; rfl⟩

theorem stopOne_told (s : State) (g h : Nat) : Told s (s.stopOne g h) := by
  unfold State.stopOne
  dsimp only
  split
  · exact Told.refl s
  · exact Told.refl s
  · have a := (dropAll_same s g h).told (dropAll_islands s g h)
    split
    · exact a.trans (Told.modRun _ g h (fun _ r => _))
    · exact (a.trans (Told.modRun _ g h (fun _ r => _))).trans ((postReport_told _ g _).trans (Told.modRun _ g h (fun _ r => _)))

theorem stopWith_told (s : State) (g h : Nat) (rep : Option (Nat × Nat × Nat)) : Told s (s.stopWith g h rep) := by
  unfold State.stopWith
  refine (stopOne_told s g h).trans ?_
  dsimp only
  split
  · refine Told.foldl _ (fun s m => (Told.modRun s m 0 (fun _ r => { r with stop := { r.stop with leader := true, report := rep } })).trans ?_) _ _
    exact Told.ite _ (Told.refl _) (stopOne_told _ _ _)
  · exact Told.refl _

theorem stopOther_told (s : State) (g h : Nat) : Told s (s.stopOther g h) := by
  unfold State.stopOther
  refine Told.ite _ (Told.refl s) ((Told.modRun s g h (fun _ r => { r with stop := { r.stop with fault := true } })).trans ?_)
  exact Told.ite _ (Told.refl _) (stopWith_told _ _ _ _)

theorem stopOther_run (s : State) (g h h' : Nat) (hk : h ≠ h') : ((s.stopOther g h).thread g h').run = (s.thread g h').run := by
  unfold State.stopOther
  dsimp only
  split
  · rfl
  · split
    · rw [State.thread_modThread, if_neg (fun q => hk q.2)]
    · rw [stopThread_keep _ _ _ _ hk, State.thread_modThread, if_neg (fun q => hk q.2)]

theorem stopOther_islands (s : State) (g h : Nat) (hr : (s.thread g h).run.stop.report = none) : (s.stopOther g h).islands = s.islands := by
  unfold State.stopOther
  dsimp only
  split
  · rfl
  · split
    · rfl
    · exact (stopThread_islands _ _ _ (by rw [State.thread_modThread_self]; exact hr)).trans rfl

/-- The parts of a trap of t0 or t1 after its report has been posted in `s1`. -/
theorem trapAt_eq (s : State) (g h cause sub addr : Nat) (pc : Word64) (insn : Nat) (eng : Bool) (rep : Nat) (hh : h ≤ 1) :
    ∃ (e : PEvent) (r : Nat), s.trapAt g h cause sub addr pc insn eng rep =
      (((((((s.postReport g (s.reportOf g h cause sub addr pc insn eng rep)).stopWith g h (some (cause, sub, addr))).modThread g h
        (fun t => t.modRun (fun r => { r with failed := true, due := [] }))).stopOther g (1 - h)).noteDebt r).modTile g
        (fun t => t.modCtl (fun c => { c with stopped := true }))).raise (clusterOf g) e) := by
  have h2 : ¬ h = 2 := by omega
  refine ⟨⟨5, threadIndex g h, 0, cause, match causeClass cause with | .context => 2 | .task => 1 | _ => 0⟩,
    (((s.postReport g (s.reportOf g h cause sub addr pc insn eng rep)).stopWith g h (some (cause, sub, addr))).modThread g h
        (fun t => t.modRun (fun r => { r with failed := true, due := [] }))).regionOf g, ?_⟩
  unfold State.trapAt
  refine (if_neg h2).trans ?_
  cases causeClass cause <;> rfl

theorem trapAt_told (s : State) (g h cause sub addr : Nat) (pc : Word64) (insn : Nat) (eng : Bool) (rep : Nat) (hh : h ≤ 1) :
    Told (s.postReport g (s.reportOf g h cause sub addr pc insn eng rep)) (s.trapAt g h cause sub addr pc insn eng rep) := by
  obtain ⟨e, r, q⟩ := trapAt_eq s g h cause sub addr pc insn eng rep hh
  rw [q]
  refine (stopWith_told _ g h (some (cause, sub, addr))).trans ?_
  generalize (s.postReport g (s.reportOf g h cause sub addr pc insn eng rep)).stopWith g h (some (cause, sub, addr)) = u
  refine Told.trans ((Same.modThread u g h (fun t => t.modRun (fun r => { r with failed := true, due := [] })) rfl).told rfl) ?_
  refine (stopOther_told _ g (1 - h)).trans (((noteDebt_same _ r).told (noteDebt_islands _ r)).trans ?_)
  generalize (State.stopOther _ g (1 - h)).noteDebt r = u
  exact Told.trans ((Same.modCtl u g (fun c => { c with stopped := true }) rfl).told rfl) ((raise_calm _ _ e).toSame.told rfl)

theorem raise_thread (s : State) (c : Nat) (e : PEvent) (g h : Nat) : (s.raise c e).thread g h = s.thread g h := rfl

theorem modCtl_thread (s : State) (g : Nat) (f : TileCtl → TileCtl) (g' h : Nat) : (s.modTile g (fun t => t.modCtl f)).thread g' h = s.thread g' h := by
  simp only [State.thread, State.tile_modTile]; split
  · subst_vars; rfl
  · rfl

theorem trapAt_run (s : State) (g h cause sub addr : Nat) (pc : Word64) (insn : Nat) (eng : Bool) (rep : Nat) (hh : h ≤ 1) :
    ((s.trapAt g h cause sub addr pc insn eng rep).thread g h).run =
      { (((s.postReport g (s.reportOf g h cause sub addr pc insn eng rep)).stopOne g h).thread g h).run with failed := true, due := [] } := by
  obtain ⟨e, r, q⟩ := trapAt_eq s g h cause sub addr pc insn eng rep hh
  have k1 : 1 - h ≠ h := by omega
  rw [q, raise_thread, modCtl_thread, noteDebt_thread, stopOther_run _ _ _ _ k1, State.thread_modThread_self, Thread.modRun_run, stopWith_run]

theorem trapAt_withheld (s : State) (g h cause sub addr : Nat) (pc : Word64) (insn : Nat) (eng : Bool) (rep : Nat) (hh : h ≤ 1) :
    ((s.trapAt g h cause sub addr pc insn eng rep).tile g).c.stopped = true := by
  obtain ⟨e, r, q⟩ := trapAt_eq s g h cause sub addr pc insn eng rep hh
  have x : ∀ u : State, (((u.modTile g (fun t => t.modCtl (fun c => { c with stopped := true }))).raise (clusterOf g) e).tile g).c.stopped = true :=
    fun u => by
      unfold State.raise
      rw [State.tile_modCluster, State.tile_modTile_self]; rfl
  rw [q]
  exact x _

/-- A trap of a thread that leads nobody, on a tile whose threads owe no report, posts one report. -/
theorem trapAt_islands (s : State) (g h cause sub addr : Nat) (pc : Word64) (insn : Nat) (eng : Bool) (rep : Nat) (hh : h ≤ 1)
    (hg : (s.thread g h).run.gather.role ≠ .leader) (hn : ∀ k, (s.thread g k).run.stop.report = none) :
    (s.trapAt g h cause sub addr pc insn eng rep).islands = (s.postReport g (s.reportOf g h cause sub addr pc insn eng rep)).islands := by
  obtain ⟨e, r, q⟩ := trapAt_eq s g h cause sub addr pc insn eng rep hh
  have k1 : 1 - h ≠ h := by omega
  rw [q]
  generalize s.reportOf g h cause sub addr pc insn eng rep = x
  have i2 : ((s.postReport g x).stopWith g h (some (cause, sub, addr))).islands = (s.postReport g x).islands := by
    have hl : (h == 0 && ((s.postReport g x).thread g h).run.gather.role == .leader) = false := by
      rw [postReport_thread, Bool.and_eq_false_iff]
      exact .inr (beq_eq_false_iff_ne.2 hg)
    unfold State.stopWith
    dsimp only
    rw [hl]
    exact stopOne_islands _ _ _ (by rw [postReport_thread]; exact hn h)
  show (((((s.postReport g x).stopWith g h (some (cause, sub, addr))).modThread g h _).stopOther g (1 - h)).noteDebt r).islands = _
  rw [noteDebt_islands, stopOther_islands _ g (1 - h)]
  · exact i2
  · rw [State.thread_modThread, if_neg (fun q => k1 q.2.symm), stopWith_run, stopOne_keep _ _ _ _ _ (fun q => k1 q.2.symm), postReport_thread]
    exact hn _

/-- A trap of a program thread. -/
theorem takeTrap_trapped (s : State) (cause sub addr : Nat) (h : s.canTrap) : Trapped s (s.takeTrap cause sub addr) cause sub addr := by
  have hh := h.thread
  let g := s.focus.tile
  let k := s.focus.thread
  have e : s.takeTrap cause sub addr = s.trapAt g k cause sub addr s.me.r.pc s.focus.word false s.me.repMark := by
    unfold State.takeTrap
    rw [h.boundary]
    rfl
  rw [e]
  have A := trapAt_told s g k cause sub addr s.me.r.pc s.focus.word false s.me.repMark hh
  have rr := trapAt_run s g k cause sub addr s.me.r.pc s.focus.word false s.me.repMark hh
  have W := trapAt_withheld s g k cause sub addr s.me.r.pc s.focus.word false s.me.repMark hh
  have I := trapAt_islands s g k cause sub addr s.me.r.pc s.focus.word false s.me.repMark hh
  generalize s.trapAt g k cause sub addr s.me.r.pc s.focus.word false s.me.repMark = t at A rr W I ⊢
  obtain ⟨p1, p2, p3, p4, p5, p6⟩ := postReport_frame s g (s.reportOf g k cause sub addr s.me.r.pc s.focus.word false s.me.repMark)
  have hts : ((s.postReport g (s.reportOf g k cause sub addr s.me.r.pc s.focus.word false s.me.repMark)).thread g k).run.ts = .running := by
    rw [p1]; exact h.running
  obtain ⟨q1, q2⟩ := stopOne_self _ g k (by rw [hts]; simp) (by rw [hts]; simp)
  have hf : t.focus = s.focus := A.focus.trans p4
  refine ⟨hf, fun g' h' => (A.thr g' h').trans (by rw [p1]), fun g' => (A.tregs g').trans (p2 g'), A.mem.trans p3, ?_, ?_, ?_, ?_, ?_⟩
  · rw [State.me, hf]; show (t.thread g k).run.ts = _
    rw [rr]; exact q1
  · rw [State.me, hf]; show (t.thread g k).run.heldTs = _
    rw [rr]; exact q2.trans (by rw [p1]; rfl)
  · rw [State.myTile, hf]; exact W
  · intro hl
    have e1 := p6 (by show s.focus.thread < 3; omega) hl
    have hv := congrArg FaultRep.v e1
    rw [State.myTile, hf]
    exact (A.latch g k hv).trans e1
  · obtain ⟨l, hl⟩ := A.ring (s.ringIsland g k)
    have p7 : ((s.postReport g (s.reportOf g k cause sub addr s.me.r.pc s.focus.word false s.me.repMark)).island (s.ringIsland g k)).ring = _ := p5
    refine ⟨l, ?_, fun hg hn => ?_⟩
    · show (t.island (s.ringIsland g k)).ring = _
      rw [hl, p7, List.append_assoc]; rfl
    · have i5 : (t.island (s.ringIsland g k)).ring =
          ((s.postReport g (s.reportOf g k cause sub addr s.me.r.pc s.focus.word false s.me.repMark)).island (s.ringIsland g k)).ring := by
        unfold State.island; rw [I hg hn]
      have x := hl.symm.trans i5
      simpa using x

end Sys2Proof.Machine
end

