-- ==== Sys2Proof/Laws/Exec.lean ====
section
/-!
SUPPORT. The common course of the meanings: the class check, and an access to the thread's own scratchpad, which comes to one read or one
write of its bytes.
-/
namespace Sys2Proof.Machine

theorem run_next (s : State) (i : Instr) (f : State → State) (h : classAllows s.focus.thread i = true) : s.run i f = .next (f s) := by
  simp [State.run, h]

/-- An instruction that the thread's class does not have is illegal (01 R5). -/
theorem run_illegal (s : State) (i : Instr) (f : State → State) (h : classAllows s.focus.thread i = false) :
    s.run i f = .next s.illegal := by
  simp [State.run, h]

theorem class01 (s : State) (i : Instr) (h : s.focus.thread ≤ 1) (h1 : isLanding i = false) (h2 : t0Only i = false) :
    classAllows s.focus.thread i = true := by
  have : s.focus.thread = 0 ∨ s.focus.thread = 1 := by omega
  rcases this with e | e <;> rw [e] <;> simp [classAllows, h1, h2]

theorem class0 (s : State) (i : Instr) (h : s.focus.thread = 0) (h1 : isLanding i = false) :
    classAllows s.focus.thread i = true := by
  rw [h]; simp [classAllows, h1]

theorem class3 (s : State) (i : Instr) (h1 : isLanding i = false) (h2 : t0Only i = false) (h3 : 1 < s.focus.thread → t2Base i = true) :
    classAllows s.focus.thread i = true := by
  unfold classAllows; split
  · simp [h1]
  · simp [h1, h2]
  · have : 1 < s.focus.thread := by
      rename_i a b
      rcases h : s.focus.thread with _ | _ | n
      · exact absurd h a
      · exact absurd h b
      · omega
    simp [h3 this]

theorem homeKey_tile (g off : Nat) (h : isTileHome g = true) : homeKey g off = padKey g off := by simp [homeKey, h]

theorem nameTile_home (n : Nat) : isTileHome (nameTile n) = true := by
  unfold isTileHome nameTile tileOf nameWafer nameY nameX waferTiles
  simp; omega

/-- An access to own bytes that nothing holds back goes on with its place. -/
theorem access_own (s : State) (a n : Nat) (k : WinKind) (go : State → Place → State) (ho : s.ownBytes a n)
    (hf : s.ownFree (addrOff a) n k.isWrite) (hp : k ≠ .store → poisonedAt s s.focus.tile (addrOff a) n = false) :
    access s a n k go = go s ⟨s.focus.tile, addrOff a, addrName a⟩ := by
  have hpl : placeOfTileAddr a = ⟨s.focus.tile, addrOff a, addrName a⟩ := by
    simp [placeOfTileAddr, ho.name, ho.tile, ho.window]
  have hck : checkAccess s s.focus.tile s.focus.thread a n k = none := by
    unfold checkAccess
    simp only [ho.path, ho.window, windowTakes, ho.fits, decide_true, ho.aligned]
    simp
  have ht : target s a n k = .place ⟨s.focus.tile, addrOff a, addrName a⟩ := by
    unfold target; dsimp only; rw [hck]; dsimp only; rw [if_pos ho.path, hpl]
  have hm : mqConflict s ⟨s.focus.tile, addrOff a, addrName a⟩ n k.isWrite = false := by
    unfold mqConflict
    by_cases h0 : s.focus.thread = 0
    · simp only [h0, beq_self_eq_true, Bool.true_and, Bool.and_eq_false_iff]
      right
      rw [List.any_eq_false]
      intro e he
      obtain ⟨h1, h2⟩ := hf.matrix e he h0
      simp only [Bool.or_eq_true, Bool.and_eq_true, List.any_eq_true, decide_eq_true_eq, not_or]
      constructor
      · rintro ⟨x, hx, h3⟩; exact h1 x hx h3
      · rintro ⟨hw, x, hx, h3⟩; exact h2 hw x hx h3
    · simp [h0]
  have hw : addrOff a / 1048576 = 0 := by have := ho.fits; omega
  have hn : ownNow s s.focus.tile s.focus.thread n ⟨s.focus.tile, addrOff a, addrName a⟩
      (classOf a ⟨s.focus.tile, addrOff a, addrName a⟩ k.cls) = true := by
    simp [ownNow, toStream, hw, ho.name, hf.ready, State.fenceHeld, hf.fences]
  unfold access
  rw [hf.held, ht]
  dsimp only
  rw [if_neg (by simp), if_neg, if_neg]
  · simp [hm, hn]
  · rintro ⟨h1, h2, h3⟩; rw [hp h1] at h3; cases h3

theorem readOf_calm (s : State) (g h home cls : Nat) (d : OutDst) (n : Nat) : Calm s (s.modThread g h (·.readOf home cls d n)) := by
  have e : ∀ r : Run, (r.noteRead home cls d n).rep = r.rep ∧ (r.noteRead home cls d n).pend = r.pend ∧ (r.clear → (r.noteRead home cls d n).clear) :=
    fun r => by unfold Run.noteRead; cases d <;> dsimp only <;> (try split) <;> exact ⟨rfl, rfl, id⟩
  exact Calm.modThread _ _ _ _ rfl (e _).1 (e _).2.1 (e _).2.2

theorem acquireDone_calm (s : State) (g h : Nat) (aq : Bool) (n : Nat) : Calm s (s.acquireDone g h aq n) := by
  unfold State.acquireDone; split
  · exact Calm.modThread _ _ _ _ rfl rfl rfl id
  · exact Calm.refl s

/-- A request to own bytes with nothing before it is performed at once. -/
theorem issueReq_own (s : State) (a : Nat) (q : MemReq) (cls : Nat) (aq : Bool) (dst : OutDst) (flat : Nat) (posted : Bool)
    (ho : s.ownBytes a q.size) (hr : ownReady s s.focus.tile (addrOff a) q.size = true)
    (hf : s.openFences s.focus.tile s.focus.thread = []) :
    issueReq s ⟨s.focus.tile, addrOff a, addrName a⟩ q cls aq dst flat posted =
      let m := reqMsg s s.focus.tile s.focus.thread ⟨s.focus.tile, addrOff a, addrName a⟩ q
      ((applyDst (doReq s s.focus.tile m q).1 s.focus.tile s.focus.thread dst (doReq s s.focus.tile m q).2).modThread
        s.focus.tile s.focus.thread (·.readOf s.focus.tile cls dst (s.readFrom s.focus.tile q))).acquireDone s.focus.tile s.focus.thread aq
        (s.readFrom s.focus.tile q) := by
  have hw : addrOff a / 1048576 = 0 := by have := ho.fits; omega
  have hw1 : addrOff a < 1048576 := by have := ho.fits; omega
  have hn : ownNow s s.focus.tile s.focus.thread q.size ⟨s.focus.tile, addrOff a, addrName a⟩ cls = true := by
    simp [ownNow, toStream, hw, ho.name, hr, State.fenceHeld, hf]
  unfold issueReq
  dsimp only
  rw [if_pos hn]
  have e : s.windowWake s.focus.tile (addrOff a) = s := by unfold State.windowWake; rw [if_pos hw1]
  rw [e]

end Sys2Proof.Machine
end

