-- ==== Sys2Proof/Laws/PerInstr.lean ====
section
/-!
SUPPORT. The family FieldsFit, one lemma per constructor: the fields of a well-formed instruction fit the places that 02 R32
gives them in the word, so that no field of an encoding runs over into its neighbour. A step without an encoding has no
fields, so for it the statement holds of nothing.
-/
set_option Elab.async false
set_option linter.unusedSimpArgs false

namespace Sys2Proof.Laws

/-- Every field in the width of its place in the word. -/
def rawFits (r : Raw) : Prop :=
  r.s < 2 ∧ r.f6 < 64 ∧ r.rs2 < 32 ∧ r.rs1 < 32 ∧ r.f3 < 8 ∧ r.rd < 32 ∧ r.opc < 128

theorem bitOf_lt (b : Bool) : bitOf b < 2 := by cases b <;> decide

theorem codeOf_lt (v : Int) (half : Nat) (h : 0 < half) : codeOf v half < 2 * half := by
  unfold codeOf
  have h1 := Int.emod_lt_of_pos v (b := 2 * (half : Int)) (by omega)
  have h2 := Int.emod_nonneg v (b := 2 * (half : Int)) (by omega)
  omega

theorem encR_fits (opc f3 f6 : Nat) (o : CR) (h : o.rd < 32 ∧ o.rs1 < 32 ∧ o.rs2 < 32) (h1 : opc < 128) (h2 : f3 < 8)
    (h3 : f6 < 64) : rawFits (encR opc f3 f6 o) := by
  have := bitOf_lt o.s
  simp only [rawFits, encR]; omega

theorem encP_fits (n : Nat) (o : CP) (h : o.d < 32 ∧ o.a < 32 ∧ o.b < 32) (hn : n < 16) : rawFits (encP n o) := by
  have := bitOf_lt o.s; have := bitOf_lt o.kd; have := bitOf_lt o.k1; have := bitOf_lt o.k2
  simp only [rawFits, encP]; omega

theorem encV_fits (c4 : Nat) (o : CV) (h : o.bounded = true) (hc : c4 < 16) : rawFits (encV c4 o) := by
  have := bitOf_lt o.s
  simp only [CV.bounded, Bool.and_eq_true, decide_eq_true_eq] at h
  simp only [rawFits, encV]; omega

theorem encU_fits (c4 sub : Nat) (o : VU) (h : o.et < 8 ∧ o.pg < 4 ∧ o.f1 < 32 ∧ o.fd < 32) (hc : c4 < 16)
    (hs : sub < 32) : rawFits (encU c4 sub o) := by
  have := bitOf_lt o.s
  simp only [rawFits, encU]; omega

theorem encM_fits (c4 : Nat) (o : MM) (h : o.bounded = true) (hc : c4 < 16) : rawFits (encM c4 o) := by
  have := bitOf_lt o.s; have := bitOf_lt o.t; have := bitOf_lt o.g; have := bitOf_lt o.z
  simp only [MM.bounded, Bool.and_eq_true, decide_eq_true_eq] at h
  simp only [rawFits, encM]; omega

theorem encI_fits (opc f3 rd rs1 u : Nat) (h1 : opc < 128) (h2 : f3 < 8) (h3 : rd < 32) (h4 : rs1 < 32) (h5 : u < 4096) :
    rawFits (encI opc f3 rd rs1 u) := by
  simp only [rawFits, encI]; omega

theorem encCsr_fits (o : CsrArgs) (h : o.csr < 4096 ∧ o.rd < 32 ∧ o.src < 32) : rawFits (encCsr o) := by
  apply encI_fits <;> first | omega | skip
  cases o.op <;> cases o.imm <;> decide

theorem encA_fits (f5 : Nat) (dw aq rl : Bool) (rd rs1 rs2 : Nat) (h : f5 < 32) (h1 : rd < 32) (h2 : rs1 < 32) (h3 : rs2 < 32) :
    rawFits (encA f5 dw aq rl rd rs1 rs2) := by
  have := bitOf_lt aq; have := bitOf_lt rl
  simp only [rawFits, encA]; cases dw <;> simp <;> omega

theorem intRow_bounds (op : IntOp) : (intRow op).opc < 128 ∧ (intRow op).f3 < 8 ∧ (intRow op).f7 < 128 ∧ (intRow op).r2 < 32 ∧
    ((intRow op).kind = .sh6 → (intRow op).f7 < 64) := by cases op <;> decide

theorem fpRow_bounds (op : FpOp) : (fpRow op).opc < 128 ∧ (fpRow op).f7 < 128 ∧ (fpRow op).rm < 8 ∧ (fpRow op).r2 < 32 := by
  cases op <;> decide

namespace FieldsFit

def Statement (i : Instr) : Prop := wellFormed i = true → ∀ r, encodeRaw i = some r → rawFits r


theorem madd : ∀ o, Statement (.madd o) := by
  intro o h r e
  simp only [encodeRaw, Option.some.injEq] at e; subst e
  simp [wellFormed, CP.wf] at h
  exact encP_fits _ _ (by omega) (by omega)

theorem msub : ∀ o, Statement (.msub o) := by
  intro o h r e
  simp only [encodeRaw, Option.some.injEq] at e; subst e
  simp [wellFormed, CP.wf] at h
  exact encP_fits _ _ (by omega) (by omega)

theorem mand : ∀ o, Statement (.mand o) := by
  intro o h r e
  simp only [encodeRaw, Option.some.injEq] at e; subst e
  simp [wellFormed, CP.wf] at h
  exact encP_fits _ _ (by omega) (by omega)

theorem mor : ∀ o, Statement (.mor o) := by
  intro o h r e
  simp only [encodeRaw, Option.some.injEq] at e; subst e
  simp [wellFormed, CP.wf] at h
  exact encP_fits _ _ (by omega) (by omega)

theorem mxor : ∀ o, Statement (.mxor o) := by
  intro o h r e
  simp only [encodeRaw, Option.some.injEq] at e; subst e
  simp [wellFormed, CP.wf] at h
  exact encP_fits _ _ (by omega) (by omega)

theorem msll : ∀ o, Statement (.msll o) := by
  intro o h r e
  simp only [encodeRaw, Option.some.injEq] at e; subst e
  simp [wellFormed, CP.wf] at h
  exact encP_fits _ _ (by omega) (by omega)

theorem msrl : ∀ o, Statement (.msrl o) := by
  intro o h r e
  simp only [encodeRaw, Option.some.injEq] at e; subst e
  simp [wellFormed, CP.wf] at h
  exact encP_fits _ _ (by omega) (by omega)

theorem msra : ∀ o, Statement (.msra o) := by
  intro o h r e
  simp only [encodeRaw, Option.some.injEq] at e; subst e
  simp [wellFormed, CP.wf] at h
  exact encP_fits _ _ (by omega) (by omega)

theorem mmin : ∀ o, Statement (.mmin o) := by
  intro o h r e
  simp only [encodeRaw, Option.some.injEq] at e; subst e
  simp [wellFormed, CP.wf] at h
  exact encP_fits _ _ (by omega) (by omega)

theorem mmax : ∀ o, Statement (.mmax o) := by
  intro o h r e
  simp only [encodeRaw, Option.some.injEq] at e; subst e
  simp [wellFormed, CP.wf] at h
  exact encP_fits _ _ (by omega) (by omega)

theorem mminu : ∀ o, Statement (.mminu o) := by
  intro o h r e
  simp only [encodeRaw, Option.some.injEq] at e; subst e
  simp [wellFormed, CP.wf] at h
  exact encP_fits _ _ (by omega) (by omega)

theorem mmaxu : ∀ o, Statement (.mmaxu o) := by
  intro o h r e
  simp only [encodeRaw, Option.some.injEq] at e; subst e
  simp [wellFormed, CP.wf] at h
  exact encP_fits _ _ (by omega) (by omega)

theorem mmov : ∀ o, Statement (.mmov o) := by
  intro o h r e
  simp only [encodeRaw, Option.some.injEq] at e; subst e
  simp [wellFormed, CP.wf] at h
  exact encP_fits _ _ (by omega) (by omega)

theorem mfadd : ∀ o, Statement (.mfadd o) := by
  intro o h r e
  simp only [encodeRaw, Option.some.injEq] at e; subst e
  simp [wellFormed, CP.wf] at h
  exact encP_fits _ _ (by omega) (by omega)

theorem mfmul : ∀ o, Statement (.mfmul o) := by
  intro o h r e
  simp only [encodeRaw, Option.some.injEq] at e; subst e
  simp [wellFormed, CP.wf] at h
  exact encP_fits _ _ (by omega) (by omega)

theorem mfmax : ∀ o, Statement (.mfmax o) := by
  intro o h r e
  simp only [encodeRaw, Option.some.injEq] at e; subst e
  simp [wellFormed, CP.wf] at h
  exact encP_fits _ _ (by omega) (by omega)

theorem send : ∀ o, Statement (.send o) := by
  intro o h r e
  simp only [encodeRaw, Option.some.injEq] at e; subst e
  simp [wellFormed, CR.bounded] at h
  exact encR_fits _ _ _ _ (by omega) (by omega) (by omega) (by omega)

theorem sendv : ∀ o, Statement (.sendv o) := by
  intro o h r e
  simp only [encodeRaw, Option.some.injEq] at e; subst e
  simp [wellFormed, CR.bounded] at h
  exact encR_fits _ _ _ _ (by omega) (by omega) (by omega) (by omega)

theorem mvc : ∀ o, Statement (.mvc o) := by
  intro o h r e
  simp only [encodeRaw, Option.some.injEq] at e; subst e
  simp [wellFormed, CR.bounded] at h
  exact encR_fits _ _ _ _ (by omega) (by omega) (by omega) (by omega)

theorem qbind : ∀ o, Statement (.qbind o) := by
  intro o h r e
  simp only [encodeRaw, Option.some.injEq] at e; subst e
  simp [wellFormed, CR.bounded] at h
  exact encR_fits _ _ _ _ (by omega) (by omega) (by omega) (by omega)

theorem qfree : ∀ o, Statement (.qfree o) := by
  intro o h r e
  simp only [encodeRaw, Option.some.injEq] at e; subst e
  simp [wellFormed, CR.bounded] at h
  exact encR_fits _ _ _ _ (by omega) (by omega) (by omega) (by omega)

theorem qcount : ∀ o, Statement (.qcount o) := by
  intro o h r e
  simp only [encodeRaw, Option.some.injEq] at e; subst e
  simp [wellFormed, CR.bounded] at h
  exact encR_fits _ _ _ _ (by omega) (by omega) (by omega) (by omega)

theorem qpopv : ∀ o, Statement (.qpopv o) := by
  intro o h r e
  simp only [encodeRaw, Option.some.injEq] at e; subst e
  simp [wellFormed, CR.bounded] at h
  exact encR_fits _ _ _ _ (by omega) (by omega) (by omega) (by omega)

theorem tstamp : ∀ o, Statement (.tstamp o) := by
  intro o h r e
  simp only [encodeRaw, Option.some.injEq] at e; subst e
  simp [wellFormed, CR.bounded] at h
  exact encR_fits _ _ _ _ (by omega) (by omega) (by omega) (by omega)

theorem slotwait : ∀ o, Statement (.slotwait o) := by
  intro o h r e
  simp only [encodeRaw, Option.some.injEq] at e; subst e
  simp [wellFormed, CR.bounded] at h
  exact encR_fits _ _ _ _ (by omega) (by omega) (by omega) (by omega)

theorem pwrhint : ∀ o, Statement (.pwrhint o) := by
  intro o h r e
  simp only [encodeRaw, Option.some.injEq] at e; subst e
  simp [wellFormed, CR.bounded] at h
  exact encR_fits _ _ _ _ (by omega) (by omega) (by omega) (by omega)

theorem lld : ∀ o, Statement (.lld o) := by
  intro o h r e
  simp only [encodeRaw, Option.some.injEq] at e; subst e
  simp [wellFormed, CR.bounded] at h
  exact encR_fits _ _ _ _ (by omega) (by omega) (by omega) (by omega)

theorem lst : ∀ o, Statement (.lst o) := by
  intro o h r e
  simp only [encodeRaw, Option.some.injEq] at e; subst e
  simp [wellFormed, CR.bounded] at h
  exact encR_fits _ _ _ _ (by omega) (by omega) (by omega) (by omega)

theorem lcrc : ∀ o, Statement (.lcrc o) := by
  intro o h r e
  simp only [encodeRaw, Option.some.injEq] at e; subst e
  simp [wellFormed, CR.bounded] at h
  exact encR_fits _ _ _ _ (by omega) (by omega) (by omega) (by omega)

theorem ldec : ∀ o, Statement (.ldec o) := by
  intro o h r e
  simp only [encodeRaw, Option.some.injEq] at e; subst e
  simp [wellFormed, CR.bounded] at h
  exact encR_fits _ _ _ _ (by omega) (by omega) (by omega) (by omega)

theorem lcvt : ∀ o, Statement (.lcvt o) := by
  intro o h r e
  simp only [encodeRaw, Option.some.injEq] at e; subst e
  simp [wellFormed, CR.bounded] at h
  exact encR_fits _ _ _ _ (by omega) (by omega) (by omega) (by omega)

theorem lcommit : ∀ o, Statement (.lcommit o) := by
  intro o h r e
  simp only [encodeRaw, Option.some.injEq] at e; subst e
  simp [wellFormed, CR.bounded] at h
  exact encR_fits _ _ _ _ (by omega) (by omega) (by omega) (by omega)

theorem ldrop : ∀ o, Statement (.ldrop o) := by
  intro o h r e
  simp only [encodeRaw, Option.some.injEq] at e; subst e
  simp [wellFormed, CR.bounded] at h
  exact encR_fits _ _ _ _ (by omega) (by omega) (by omega) (by omega)

theorem linfo : ∀ o, Statement (.linfo o) := by
  intro o h r e
  simp only [encodeRaw, Option.some.injEq] at e; subst e
  simp [wellFormed, CR.bounded] at h
  exact encR_fits _ _ _ _ (by omega) (by omega) (by omega) (by omega)

theorem spawn : ∀ o, Statement (.spawn o) := by
  intro o h r e
  simp only [encodeRaw, Option.some.injEq] at e; subst e
  simp [wellFormed, CR.bounded] at h
  exact encR_fits _ _ _ _ (by omega) (by omega) (by omega) (by omega)

theorem spawnt : ∀ o, Statement (.spawnt o) := by
  intro o h r e
  simp only [encodeRaw, Option.some.injEq] at e; subst e
  simp [wellFormed, CR.bounded] at h
  exact encR_fits _ _ _ _ (by omega) (by omega) (by omega) (by omega)

theorem tend : ∀ o, Statement (.tend o) := by
  intro o h r e
  simp only [encodeRaw, Option.some.injEq] at e; subst e
  simp [wellFormed, CR.bounded] at h
  exact encR_fits _ _ _ _ (by omega) (by omega) (by omega) (by omega)

theorem jdec : ∀ o, Statement (.jdec o) := by
  intro o h r e
  simp only [encodeRaw, Option.some.injEq] at e; subst e
  simp [wellFormed, CR.bounded] at h
  exact encR_fits _ _ _ _ (by omega) (by omega) (by omega) (by omega)

theorem taskinfo : ∀ o, Statement (.taskinfo o) := by
  intro o h r e
  simp only [encodeRaw, Option.some.injEq] at e; subst e
  simp [wellFormed, CR.bounded] at h
  exact encR_fits _ _ _ _ (by omega) (by omega) (by omega) (by omega)

theorem qwroot : ∀ o, Statement (.qwroot o) := by
  intro o h r e
  simp only [encodeRaw, Option.some.injEq] at e; subst e
  simp [wellFormed, CR.bounded] at h
  exact encR_fits _ _ _ _ (by omega) (by omega) (by omega) (by omega)

theorem qwait : ∀ o, Statement (.qwait o) := by
  intro o h r e
  simp only [encodeRaw, Option.some.injEq] at e; subst e
  simp [wellFormed, CR.bounded] at h
  exact encR_fits _ _ _ _ (by omega) (by omega) (by omega) (by omega)

theorem qwheld : ∀ o, Statement (.qwheld o) := by
  intro o h r e
  simp only [encodeRaw, Option.some.injEq] at e; subst e
  simp [wellFormed, CR.bounded] at h
  exact encR_fits _ _ _ _ (by omega) (by omega) (by omega) (by omega)

theorem qwret : ∀ o, Statement (.qwret o) := by
  intro o h r e
  simp only [encodeRaw, Option.some.injEq] at e; subst e
  simp [wellFormed, CR.bounded] at h
  exact encR_fits _ _ _ _ (by omega) (by omega) (by omega) (by omega)

theorem qwdone : ∀ o, Statement (.qwdone o) := by
  intro o h r e
  simp only [encodeRaw, Option.some.injEq] at e; subst e
  simp [wellFormed, CR.bounded] at h
  exact encR_fits _ _ _ _ (by omega) (by omega) (by omega) (by omega)

theorem barrive : ∀ o, Statement (.barrive o) := by
  intro o h r e
  simp only [encodeRaw, Option.some.injEq] at e; subst e
  simp [wellFormed, CR.bounded] at h
  exact encR_fits _ _ _ _ (by omega) (by omega) (by omega) (by omega)

theorem bwait : ∀ o, Statement (.bwait o) := by
  intro o h r e
  simp only [encodeRaw, Option.some.injEq] at e; subst e
  simp [wellFormed, CR.bounded] at h
  exact encR_fits _ _ _ _ (by omega) (by omega) (by omega) (by omega)

theorem cwaitge : ∀ o, Statement (.cwaitge o) := by
  intro o h r e
  simp only [encodeRaw, Option.some.injEq] at e; subst e
  simp [wellFormed, CR.bounded] at h
  exact encR_fits _ _ _ _ (by omega) (by omega) (by omega) (by omega)

theorem ctest : ∀ o, Statement (.ctest o) := by
  intro o h r e
  simp only [encodeRaw, Option.some.injEq] at e; subst e
  simp [wellFormed, CR.bounded] at h
  exact encR_fits _ _ _ _ (by omega) (by omega) (by omega) (by omega)

theorem gjoin : ∀ o, Statement (.gjoin o) := by
  intro o h r e
  simp only [encodeRaw, Option.some.injEq] at e; subst e
  simp [wellFormed, CR.bounded] at h
  exact encR_fits _ _ _ _ (by omega) (by omega) (by omega) (by omega)

theorem gleave : ∀ o, Statement (.gleave o) := by
  intro o h r e
  simp only [encodeRaw, Option.some.injEq] at e; subst e
  simp [wellFormed, CR.bounded] at h
  exact encR_fits _ _ _ _ (by omega) (by omega) (by omega) (by omega)

theorem grejoin : ∀ o, Statement (.grejoin o) := by
  intro o h r e
  simp only [encodeRaw, Option.some.injEq] at e; subst e
  simp [wellFormed, CR.bounded] at h
  exact encR_fits _ _ _ _ (by omega) (by omega) (by omega) (by omega)

theorem gsync : ∀ o, Statement (.gsync o) := by
  intro o h r e
  simp only [encodeRaw, Option.some.injEq] at e; subst e
  simp [wellFormed, CR.bounded] at h
  exact encR_fits _ _ _ _ (by omega) (by omega) (by omega) (by omega)

theorem ginfo : ∀ o, Statement (.ginfo o) := by
  intro o h r e
  simp only [encodeRaw, Option.some.injEq] at e; subst e
  simp [wellFormed, CR.bounded] at h
  exact encR_fits _ _ _ _ (by omega) (by omega) (by omega) (by omega)

theorem fencex : ∀ s pred succ scope, Statement (.fencex s pred succ scope) := by
  intro s pred succ scope h r e
  simp only [encodeRaw, Option.some.injEq] at e; subst e
  have := bitOf_lt s; simp [wellFormed] at h
  simp only [rawFits]; omega

theorem lpset : ∀ s len rs1, Statement (.lpset s len rs1) := by
  intro s len rs1 h r e
  simp only [encodeRaw, Option.some.injEq] at e; subst e
  have := bitOf_lt s; simp [wellFormed] at h
  simp only [rawFits]; omega

theorem rep : ∀ s count mask step, Statement (.rep s count mask step) := by
  intro s count mask step h r e
  simp only [encodeRaw, Option.some.injEq] at e; subst e
  have := bitOf_lt s; simp [wellFormed] at h
  simp only [rawFits]; omega

theorem rng64 : ∀ o, Statement (.rng64 o) := by
  intro o h r e
  simp only [encodeRaw, Option.some.injEq] at e; subst e
  simp [wellFormed, CR.bounded] at h
  exact encR_fits _ _ _ _ (by omega) (by omega) (by omega) (by omega)

theorem rngf : ∀ o, Statement (.rngf o) := by
  intro o h r e
  simp only [encodeRaw, Option.some.injEq] at e; subst e
  simp [wellFormed, CR.bounded] at h
  exact encR_fits _ _ _ _ (by omega) (by omega) (by omega) (by omega)

theorem rngv : ∀ o, Statement (.rngv o) := by
  intro o h r e
  simp only [encodeRaw, Option.some.injEq] at e; subst e
  simp [wellFormed, CR.bounded] at h
  exact encR_fits _ _ _ _ (by omega) (by omega) (by omega) (by omega)

theorem rngjump : ∀ o, Statement (.rngjump o) := by
  intro o h r e
  simp only [encodeRaw, Option.some.injEq] at e; subst e
  simp [wellFormed, CR.bounded] at h
  exact encR_fits _ _ _ _ (by omega) (by omega) (by omega) (by omega)

theorem npenter : ∀ o, Statement (.npenter o) := by
  intro o h r e
  simp only [encodeRaw, Option.some.injEq] at e; subst e
  simp [wellFormed, CR.bounded] at h
  exact encR_fits _ _ _ _ (by omega) (by omega) (by omega) (by omega)

theorem npexit : ∀ o, Statement (.npexit o) := by
  intro o h r e
  simp only [encodeRaw, Option.some.injEq] at e; subst e
  simp [wellFormed, CR.bounded] at h
  exact encR_fits _ _ _ _ (by omega) (by omega) (by omega) (by omega)

theorem slice : ∀ o, Statement (.slice o) := by
  intro o h r e
  simp only [encodeRaw, Option.some.injEq] at e; subst e
  simp [wellFormed, CR.bounded] at h
  exact encR_fits _ _ _ _ (by omega) (by omega) (by omega) (by omega)

theorem errinfo : ∀ o, Statement (.errinfo o) := by
  intro o h r e
  simp only [encodeRaw, Option.some.injEq] at e; subst e
  simp [wellFormed, CR.bounded] at h
  exact encR_fits _ _ _ _ (by omega) (by omega) (by omega) (by omega)

theorem vadd : ∀ o, Statement (.vadd o) := by
  intro o h r e
  simp only [encodeRaw, Option.some.injEq] at e; subst e
  simp only [wellFormed, Bool.and_eq_true] at h
  exact encV_fits _ _ (by simp_all) (by omega)

theorem vsub : ∀ o, Statement (.vsub o) := by
  intro o h r e
  simp only [encodeRaw, Option.some.injEq] at e; subst e
  simp only [wellFormed, Bool.and_eq_true] at h
  exact encV_fits _ _ (by simp_all) (by omega)

theorem vmul : ∀ o, Statement (.vmul o) := by
  intro o h r e
  simp only [encodeRaw, Option.some.injEq] at e; subst e
  simp only [wellFormed, Bool.and_eq_true] at h
  exact encV_fits _ _ (by simp_all) (by omega)

theorem vfma : ∀ o, Statement (.vfma o) := by
  intro o h r e
  simp only [encodeRaw, Option.some.injEq] at e; subst e
  simp only [wellFormed, Bool.and_eq_true] at h
  exact encV_fits _ _ (by simp_all) (by omega)

theorem vmin : ∀ o, Statement (.vmin o) := by
  intro o h r e
  simp only [encodeRaw, Option.some.injEq] at e; subst e
  simp only [wellFormed, Bool.and_eq_true] at h
  exact encV_fits _ _ (by simp_all) (by omega)

theorem vmax : ∀ o, Statement (.vmax o) := by
  intro o h r e
  simp only [encodeRaw, Option.some.injEq] at e; subst e
  simp only [wellFormed, Bool.and_eq_true] at h
  exact encV_fits _ _ (by simp_all) (by omega)

theorem vbit : ∀ o, Statement (.vbit o) := by
  intro o h r e
  simp only [encodeRaw, Option.some.injEq] at e; subst e
  simp only [wellFormed, Bool.and_eq_true] at h
  exact encV_fits _ _ (by simp_all) (by omega)

theorem vshift : ∀ o, Statement (.vshift o) := by
  intro o h r e
  simp only [encodeRaw, Option.some.injEq] at e; subst e
  simp only [wellFormed, Bool.and_eq_true] at h
  exact encV_fits _ _ (by simp_all) (by omega)

theorem vcmp : ∀ o, Statement (.vcmp o) := by
  intro o h r e
  simp only [encodeRaw, Option.some.injEq] at e; subst e
  simp only [wellFormed, Bool.and_eq_true] at h
  exact encV_fits _ _ (by simp_all) (by omega)

theorem vsel : ∀ o, Statement (.vsel o) := by
  intro o h r e
  simp only [encodeRaw, Option.some.injEq] at e; subst e
  simp only [wellFormed, Bool.and_eq_true] at h
  exact encV_fits _ _ (by simp_all) (by omega)

theorem vld : ∀ o, Statement (.vld o) := by
  intro o h r e
  simp only [encodeRaw, Option.some.injEq] at e; subst e
  simp only [wellFormed, Bool.and_eq_true] at h
  exact encV_fits _ _ (by simp_all) (by omega)

theorem vst : ∀ o, Statement (.vst o) := by
  intro o h r e
  simp only [encodeRaw, Option.some.injEq] at e; subst e
  simp only [wellFormed, Bool.and_eq_true] at h
  exact encV_fits _ _ (by simp_all) (by omega)

theorem vgath : ∀ o, Statement (.vgath o) := by
  intro o h r e
  simp only [encodeRaw, Option.some.injEq] at e; subst e
  simp only [wellFormed, Bool.and_eq_true] at h
  exact encV_fits _ _ (by simp_all) (by omega)

theorem vscat : ∀ o, Statement (.vscat o) := by
  intro o h r e
  simp only [encodeRaw, Option.some.injEq] at e; subst e
  simp only [wellFormed, Bool.and_eq_true] at h
  exact encV_fits _ _ (by simp_all) (by omega)

theorem vneg : ∀ o, Statement (.vneg o) := by
  intro o h r e
  simp only [encodeRaw, Option.some.injEq] at e; subst e
  simp [wellFormed, VU.bounded] at h
  exact encU_fits _ _ _ (by omega) (by omega) (by omega)

theorem vabs : ∀ o, Statement (.vabs o) := by
  intro o h r e
  simp only [encodeRaw, Option.some.injEq] at e; subst e
  simp [wellFormed, VU.bounded] at h
  exact encU_fits _ _ _ (by omega) (by omega) (by omega)

theorem vmov : ∀ o, Statement (.vmov o) := by
  intro o h r e
  simp only [encodeRaw, Option.some.injEq] at e; subst e
  simp [wellFormed, VU.bounded] at h
  exact encU_fits _ _ _ (by omega) (by omega) (by omega)

theorem vsplatx : ∀ o, Statement (.vsplatx o) := by
  intro o h r e
  simp only [encodeRaw, Option.some.injEq] at e; subst e
  simp [wellFormed, VU.bounded] at h
  exact encU_fits _ _ _ (by omega) (by omega) (by omega)

theorem vsplatf : ∀ o, Statement (.vsplatf o) := by
  intro o h r e
  simp only [encodeRaw, Option.some.injEq] at e; subst e
  simp [wellFormed, VU.bounded] at h
  exact encU_fits _ _ _ (by omega) (by omega) (by omega)

theorem vextx : ∀ o, Statement (.vextx o) := by
  intro o h r e
  simp only [encodeRaw, Option.some.injEq] at e; subst e
  simp [wellFormed, VU.bounded] at h
  exact encU_fits _ _ _ (by omega) (by omega) (by omega)

theorem vrcp : ∀ o, Statement (.vrcp o) := by
  intro o h r e
  simp only [encodeRaw, Option.some.injEq] at e; subst e
  simp [wellFormed, VU.bounded] at h
  exact encU_fits _ _ _ (by omega) (by omega) (by omega)

theorem vrsqrt : ∀ o, Statement (.vrsqrt o) := by
  intro o h r e
  simp only [encodeRaw, Option.some.injEq] at e; subst e
  simp [wellFormed, VU.bounded] at h
  exact encU_fits _ _ _ (by omega) (by omega) (by omega)

theorem vexp2 : ∀ o, Statement (.vexp2 o) := by
  intro o h r e
  simp only [encodeRaw, Option.some.injEq] at e; subst e
  simp [wellFormed, VU.bounded] at h
  exact encU_fits _ _ _ (by omega) (by omega) (by omega)

theorem vlog2 : ∀ o, Statement (.vlog2 o) := by
  intro o h r e
  simp only [encodeRaw, Option.some.injEq] at e; subst e
  simp [wellFormed, VU.bounded] at h
  exact encU_fits _ _ _ (by omega) (by omega) (by omega)

theorem vtanh : ∀ o, Statement (.vtanh o) := by
  intro o h r e
  simp only [encodeRaw, Option.some.injEq] at e; subst e
  simp [wellFormed, VU.bounded] at h
  exact encU_fits _ _ _ (by omega) (by omega) (by omega)

theorem vsigm : ∀ o, Statement (.vsigm o) := by
  intro o h r e
  simp only [encodeRaw, Option.some.injEq] at e; subst e
  simp [wellFormed, VU.bounded] at h
  exact encU_fits _ _ _ (by omega) (by omega) (by omega)

theorem vredsum : ∀ o, Statement (.vredsum o) := by
  intro o h r e
  simp only [encodeRaw, Option.some.injEq] at e; subst e
  simp [wellFormed, VU.bounded] at h
  exact encU_fits _ _ _ (by omega) (by omega) (by omega)

theorem vredmax : ∀ o, Statement (.vredmax o) := by
  intro o h r e
  simp only [encodeRaw, Option.some.injEq] at e; subst e
  simp [wellFormed, VU.bounded] at h
  exact encU_fits _ _ _ (by omega) (by omega) (by omega)

theorem vredmin : ∀ o, Statement (.vredmin o) := by
  intro o h r e
  simp only [encodeRaw, Option.some.injEq] at e; subst e
  simp [wellFormed, VU.bounded] at h
  exact encU_fits _ _ _ (by omega) (by omega) (by omega)

theorem viota : ∀ o, Statement (.viota o) := by
  intro o h r e
  simp only [encodeRaw, Option.some.injEq] at e; subst e
  simp [wellFormed, VU.bounded] at h
  exact encU_fits _ _ _ (by omega) (by omega) (by omega)

theorem vcvt : ∀ sub o, Statement (.vcvt sub o) := by
  intro sub o h r e
  simp only [encodeRaw, Option.some.injEq] at e; subst e
  simp [wellFormed, VU.bounded] at h
  exact encU_fits _ _ _ (by omega) (by omega) (by omega)

theorem vcvtsr : ∀ sub o, Statement (.vcvtsr sub o) := by
  intro sub o h r e
  simp only [encodeRaw, Option.some.injEq] at e; subst e
  simp [wellFormed, VU.bounded] at h
  exact encU_fits _ _ _ (by omega) (by omega) (by omega)

theorem vquery : ∀ o, Statement (.vquery o) := by
  intro o h r e
  simp only [encodeRaw, Option.some.injEq] at e; subst e
  simp [wellFormed, VU.bounded] at h
  exact encU_fits _ _ _ (by omega) (by omega) (by omega)

theorem vperm : ∀ o, Statement (.vperm o) := by
  intro o h r e
  simp only [encodeRaw, Option.some.injEq] at e; subst e
  simp [wellFormed, VU.bounded] at h
  exact encU_fits _ _ _ (by omega) (by omega) (by omega)

theorem pand : ∀ o, Statement (.pand o) := by
  intro o h r e
  simp only [encodeRaw, Option.some.injEq] at e; subst e
  simp [wellFormed, VU.bounded] at h
  exact encU_fits _ _ _ (by omega) (by omega) (by omega)

theorem por : ∀ o, Statement (.por o) := by
  intro o h r e
  simp only [encodeRaw, Option.some.injEq] at e; subst e
  simp [wellFormed, VU.bounded] at h
  exact encU_fits _ _ _ (by omega) (by omega) (by omega)

theorem pxor : ∀ o, Statement (.pxor o) := by
  intro o h r e
  simp only [encodeRaw, Option.some.injEq] at e; subst e
  simp [wellFormed, VU.bounded] at h
  exact encU_fits _ _ _ (by omega) (by omega) (by omega)

theorem pnot : ∀ o, Statement (.pnot o) := by
  intro o h r e
  simp only [encodeRaw, Option.some.injEq] at e; subst e
  simp [wellFormed, VU.bounded] at h
  exact encU_fits _ _ _ (by omega) (by omega) (by omega)

theorem pcount : ∀ o, Statement (.pcount o) := by
  intro o h r e
  simp only [encodeRaw, Option.some.injEq] at e; subst e
  simp [wellFormed, VU.bounded] at h
  exact encU_fits _ _ _ (by omega) (by omega) (by omega)

theorem pfirst : ∀ o, Statement (.pfirst o) := by
  intro o h r e
  simp only [encodeRaw, Option.some.injEq] at e; subst e
  simp [wellFormed, VU.bounded] at h
  exact encU_fits _ _ _ (by omega) (by omega) (by omega)

theorem pwhilelt : ∀ o, Statement (.pwhilelt o) := by
  intro o h r e
  simp only [encodeRaw, Option.some.injEq] at e; subst e
  simp [wellFormed, VU.bounded] at h
  exact encU_fits _ _ _ (by omega) (by omega) (by omega)

theorem mmaE4e4 : ∀ o, Statement (.mmaE4e4 o) := by
  intro o h r e
  simp only [encodeRaw, Option.some.injEq] at e; subst e
  simp only [wellFormed, Bool.and_eq_true] at h
  exact encM_fits _ _ (by simp_all) (by omega)

theorem mmaE4e5 : ∀ o, Statement (.mmaE4e5 o) := by
  intro o h r e
  simp only [encodeRaw, Option.some.injEq] at e; subst e
  simp only [wellFormed, Bool.and_eq_true] at h
  exact encM_fits _ _ (by simp_all) (by omega)

theorem mmaE5e4 : ∀ o, Statement (.mmaE5e4 o) := by
  intro o h r e
  simp only [encodeRaw, Option.some.injEq] at e; subst e
  simp only [wellFormed, Bool.and_eq_true] at h
  exact encM_fits _ _ (by simp_all) (by omega)

theorem mmaE5e5 : ∀ o, Statement (.mmaE5e5 o) := by
  intro o h r e
  simp only [encodeRaw, Option.some.injEq] at e; subst e
  simp only [wellFormed, Bool.and_eq_true] at h
  exact encM_fits _ _ (by simp_all) (by omega)

theorem mmaE4f6 : ∀ o, Statement (.mmaE4f6 o) := by
  intro o h r e
  simp only [encodeRaw, Option.some.injEq] at e; subst e
  simp only [wellFormed, Bool.and_eq_true] at h
  exact encM_fits _ _ (by simp_all) (by omega)

theorem mmaE4f4 : ∀ o, Statement (.mmaE4f4 o) := by
  intro o h r e
  simp only [encodeRaw, Option.some.injEq] at e; subst e
  simp only [wellFormed, Bool.and_eq_true] at h
  exact encM_fits _ _ (by simp_all) (by omega)

theorem mmaF4f4 : ∀ o, Statement (.mmaF4f4 o) := by
  intro o h r e
  simp only [encodeRaw, Option.some.injEq] at e; subst e
  simp only [wellFormed, Bool.and_eq_true] at h
  exact encM_fits _ _ (by simp_all) (by omega)

theorem mmaBf : ∀ o, Statement (.mmaBf o) := by
  intro o h r e
  simp only [encodeRaw, Option.some.injEq] at e; subst e
  simp only [wellFormed, Bool.and_eq_true] at h
  exact encM_fits _ _ (by simp_all) (by omega)

theorem mmaI8 : ∀ o, Statement (.mmaI8 o) := by
  intro o h r e
  simp only [encodeRaw, Option.some.injEq] at e; subst e
  simp only [wellFormed, Bool.and_eq_true] at h
  exact encM_fits _ _ (by simp_all) (by omega)

theorem mconv : ∀ o, Statement (.mconv o) := by
  intro o h r e
  simp only [encodeRaw, Option.some.injEq] at e; subst e
  simp only [wellFormed, Bool.and_eq_true] at h
  exact encM_fits _ _ (by simp_all) (by omega)

theorem maccZero : ∀ o, Statement (.maccZero o) := by
  intro o h r e
  simp only [encodeRaw, Option.some.injEq] at e; subst e
  simp [wellFormed, CR.bounded] at h
  exact encR_fits _ _ _ _ (by omega) (by omega) (by omega) (by omega)

theorem maccSt : ∀ o, Statement (.maccSt o) := by
  intro o h r e
  simp only [encodeRaw, Option.some.injEq] at e; subst e
  simp [wellFormed, CR.bounded] at h
  exact encR_fits _ _ _ _ (by omega) (by omega) (by omega) (by omega)

theorem maccStp : ∀ o, Statement (.maccStp o) := by
  intro o h r e
  simp only [encodeRaw, Option.some.injEq] at e; subst e
  simp [wellFormed, CR.bounded] at h
  exact encR_fits _ _ _ _ (by omega) (by omega) (by omega) (by omega)

theorem maccLdp : ∀ o, Statement (.maccLdp o) := by
  intro o h r e
  simp only [encodeRaw, Option.some.injEq] at e; subst e
  simp [wellFormed, CR.bounded] at h
  exact encR_fits _ _ _ _ (by omega) (by omega) (by omega) (by omega)

theorem maccRow : ∀ o, Statement (.maccRow o) := by
  intro o h r e
  simp only [encodeRaw, Option.some.injEq] at e; subst e
  simp [wellFormed, CR.bounded] at h
  exact encR_fits _ _ _ _ (by omega) (by omega) (by omega) (by omega)

theorem cqpush : ∀ o, Statement (.cqpush o) := by
  intro o h r e
  simp only [encodeRaw, Option.some.injEq] at e; subst e
  simp [wellFormed, CR.bounded] at h
  exact encR_fits _ _ _ _ (by omega) (by omega) (by omega) (by omega)

theorem cqtry : ∀ o, Statement (.cqtry o) := by
  intro o h r e
  simp only [encodeRaw, Option.some.injEq] at e; subst e
  simp [wellFormed, CR.bounded] at h
  exact encR_fits _ _ _ _ (by omega) (by omega) (by omega) (by omega)

theorem cqtryProbe : ∀ o, Statement (.cqtryProbe o) := by
  intro o h r e
  simp only [encodeRaw, Option.some.injEq] at e; subst e
  simp [wellFormed, CR.bounded] at h
  exact encR_fits _ _ _ _ (by omega) (by omega) (by omega) (by omega)

theorem cqctlFree : ∀ o, Statement (.cqctlFree o) := by
  intro o h r e
  simp only [encodeRaw, Option.some.injEq] at e; subst e
  simp [wellFormed, CR.bounded] at h
  exact encR_fits _ _ _ _ (by omega) (by omega) (by omega) (by omega)

theorem cqctlWait : ∀ o, Statement (.cqctlWait o) := by
  intro o h r e
  simp only [encodeRaw, Option.some.injEq] at e; subst e
  simp [wellFormed, CR.bounded] at h
  exact encR_fits _ _ _ _ (by omega) (by omega) (by omega) (by omega)

theorem mprog : ∀ o, Statement (.mprog o) := by
  intro o h r e
  simp only [encodeRaw, Option.some.injEq] at e; subst e
  simp [wellFormed, CR.bounded] at h
  exact encR_fits _ _ _ _ (by omega) (by omega) (by omega) (by omega)

theorem load : ∀ op rd rs1 imm, Statement (.load op rd rs1 imm) := by
  intro op rd rs1 imm h r e
  have hc := codeOf_lt imm 2048 (by omega)
  simp [wellFormed] at h
  cases op <;> simp only [encodeRaw, Option.some.injEq] at e <;> subst e <;>
    exact encI_fits _ _ _ _ _ (by omega) (by simp [loadF3]) (by omega) (by omega) (by omega)

theorem store : ∀ op rs1 rs2 imm, Statement (.store op rs1 rs2 imm) := by
  intro op rs1 rs2 imm h r e
  have hc := codeOf_lt imm 2048 (by omega)
  simp [wellFormed] at h
  cases op <;> simp only [encodeRaw, Option.some.injEq] at e <;> subst e <;> simp only [rawFits, storeF3] <;> simp <;> omega

theorem amo : ∀ op dw aq rl rd rs1 rs2, Statement (.amo op dw aq rl rd rs1 rs2) := by
  intro op dw aq rl rd rs1 rs2 h r e
  simp only [encodeRaw, Option.some.injEq] at e; subst e
  simp [wellFormed] at h
  exact encA_fits _ _ _ _ _ _ _ (by cases op <;> decide) (by omega) (by omega) (by omega)

theorem lr : ∀ dw aq rl rd rs1, Statement (.lr dw aq rl rd rs1) := by
  intro dw aq rl rd rs1 h r e
  simp only [encodeRaw, Option.some.injEq] at e; subst e
  simp [wellFormed] at h
  exact encA_fits _ _ _ _ _ _ _ (by omega) (by omega) (by omega) (by omega)

theorem sc : ∀ dw aq rl rd rs1 rs2, Statement (.sc dw aq rl rd rs1 rs2) := by
  intro dw aq rl rd rs1 rs2 h r e
  simp only [encodeRaw, Option.some.injEq] at e; subst e
  simp [wellFormed] at h
  exact encA_fits _ _ _ _ _ _ _ (by omega) (by omega) (by omega) (by omega)

theorem fence : ∀ fm pred succ rd rs1, Statement (.fence fm pred succ rd rs1) := by
  intro fm pred succ rd rs1 h r e
  simp only [encodeRaw, Option.some.injEq] at e; subst e
  simp [wellFormed] at h
  simp only [rawFits]; omega

theorem fenceTso : ∀ rd rs1, Statement (.fenceTso rd rs1) := by
  intro rd rs1 h r e
  simp only [encodeRaw, Option.some.injEq] at e; subst e
  simp [wellFormed] at h
  simp only [rawFits]; omega

theorem fenceI : ∀ rd rs1 imm, Statement (.fenceI rd rs1 imm) := by
  intro rd rs1 imm h r e
  simp only [encodeRaw, Option.some.injEq] at e; subst e
  simp [wellFormed] at h
  exact encI_fits _ _ _ _ _ (by omega) (by omega) (by omega) (by omega) (by omega)

theorem csrAccess : ∀ o, Statement (.csrAccess o) := by
  intro o h r e
  simp only [encodeRaw, Option.some.injEq] at e; subst e
  simp [wellFormed, CsrArgs.bounded] at h
  exact encCsr_fits _ (by omega)

theorem controlTransfer : ∀ op rd rs1 rs2 imm, Statement (.controlTransfer op rd rs1 rs2 imm) := by
  intro op rd rs1 rs2 imm h r e
  have hc := codeOf_lt imm 2048 (by omega)
  have hd := codeOf_lt imm 4096 (by omega)
  have hj := codeOf_lt imm 1048576 (by omega)
  cases op <;> simp [wellFormed] at h <;> simp only [encodeRaw, Option.some.injEq] at e <;> subst e <;>
    simp only [rawFits, encI, branchF3] <;> omega

theorem integerOp : ∀ op rd rs1 rs2 imm, Statement (.integerOp op rd rs1 rs2 imm) := by
  intro op rd rs1 rs2 imm h r e
  have hu := codeOf_lt imm 524288 (by omega)
  have hc := codeOf_lt imm 2048 (by omega)
  have hr := intRow_bounds op
  simp only [encodeRaw, Option.some.injEq] at e; subst e
  simp only [wellFormed, intWf] at h
  cases hk : (intRow op).kind <;> simp only [hk, Bool.and_eq_true, decide_eq_true_eq] at h <;>
    simp only [encInt, hk, rawFits, encI] <;> simp only [hk] at hr <;> (try simp only [forall_const] at hr) <;> omega

theorem fpOp : ∀ op rm rd rs1 rs2 rs3, Statement (.fpOp op rm rd rs1 rs2 rs3) := by
  intro op rm rd rs1 rs2 rs3 h r e
  have hr := fpRow_bounds op
  simp only [encodeRaw, Option.some.injEq] at e; subst e
  simp only [wellFormed, fpWf] at h
  cases hk : (fpRow op).kind <;> simp only [hk, Bool.and_eq_true, decide_eq_true_eq] at h <;>
    simp only [encFp, hk, rawFits] <;> omega

theorem matrixRowCommit : ∀ parity, Statement (.matrixRowCommit parity) := by
  intro parity _ r e; simp [encodeRaw] at e

theorem islandThreadStart : ∀ code, Statement (.islandThreadStart code) := by
  intro code _ r e; simp [encodeRaw] at e

theorem islandLaunch : ∀ d0 d1 d2, Statement (.islandLaunch d0 d1 d2) := by
  intro d0 d1 d2 _ r e; simp [encodeRaw] at e

theorem messageRoute : ∀ port vc esc, Statement (.messageRoute port vc esc) := by
  intro port vc esc _ r e; simp [encodeRaw] at e

theorem flitCrcReplay : ∀ port, Statement (.flitCrcReplay port) := by
  intro port _ r e; simp [encodeRaw] at e

theorem linkDown : ∀ port, Statement (.linkDown port) := by
  intro port _ r e; simp [encodeRaw] at e

theorem memoryRequest : ∀ home, Statement (.memoryRequest home) := by
  intro home _ r e; simp [encodeRaw] at e

theorem leavenReturn : ∀ at_, Statement (.leavenReturn at_) := by
  intro at_ _ r e; simp [encodeRaw] at e

theorem borrowRequest : ∀ at_, Statement (.borrowRequest at_) := by
  intro at_ _ r e; simp [encodeRaw] at e

theorem joinDecrement : ∀ home, Statement (.joinDecrement home) := by
  intro home _ r e; simp [encodeRaw] at e

theorem barrierArrival : ∀ home, Statement (.barrierArrival home) := by
  intro home _ r e; simp [encodeRaw] at e

theorem domainAllocationRequest : ∀ island, Statement (.domainAllocationRequest island) := by
  intro island _ r e; simp [encodeRaw] at e

theorem openFile : ∀ result, Statement (.openFile result) := by
  intro result _ r e; simp [encodeRaw] at e

theorem readFile : ∀ data, Statement (.readFile data) := by
  intro data _ r e; simp [encodeRaw] at e

theorem writeFile : ∀ written, Statement (.writeFile written) := by
  intro written _ r e; simp [encodeRaw] at e

theorem registerWindowAccess : ∀ home, Statement (.registerWindowAccess home) := by
  intro home _ r e; simp [encodeRaw] at e

theorem streamWindowStore : ∀ home, Statement (.streamWindowStore home) := by
  intro home _ r e; simp [encodeRaw] at e

theorem accumulatorWindowAccess : ∀ home, Statement (.accumulatorWindowAccess home) := by
  intro home _ r e; simp [encodeRaw] at e

theorem copyClaim : ∀ home, Statement (.copyClaim home) := by
  intro home _ r e; simp [encodeRaw] at e

theorem copyData : ∀ home, Statement (.copyData home) := by
  intro home _ r e; simp [encodeRaw] at e

theorem copyIncrement : ∀ home, Statement (.copyIncrement home) := by
  intro home _ r e; simp [encodeRaw] at e

theorem translationWalk : ∀ index, Statement (.translationWalk index) := by
  intro index _ r e; simp [encodeRaw] at e

theorem wxlatInvGo : ∀ island value, Statement (.wxlatInvGo island value) := by
  intro island value _ r e; simp [encodeRaw] at e

theorem tileInvalidation : ∀ island tile, Statement (.tileInvalidation island tile) := by
  intro island tile _ r e; simp [encodeRaw] at e

theorem invalidationDone : ∀ island, Statement (.invalidationDone island) := by
  intro island _ r e; simp [encodeRaw] at e

theorem wxlatInvDoneClear : ∀ island, Statement (.wxlatInvDoneClear island) := by
  intro island _ r e; simp [encodeRaw] at e

theorem dispatchDecision : ∀ cluster, Statement (.dispatchDecision cluster) := by
  intro cluster _ r e; simp [encodeRaw] at e

theorem preemptDecision : ∀ cluster, Statement (.preemptDecision cluster) := by
  intro cluster _ r e; simp [encodeRaw] at e

theorem faultDecision : ∀ cluster, Statement (.faultDecision cluster) := by
  intro cluster _ r e; simp [encodeRaw] at e

theorem timerDecision : ∀ cluster, Statement (.timerDecision cluster) := by
  intro cluster _ r e; simp [encodeRaw] at e

theorem decisionOverrun : ∀ cluster, Statement (.decisionOverrun cluster) := by
  intro cluster _ r e; simp [encodeRaw] at e

theorem timerEvent : ∀ cluster, Statement (.timerEvent cluster) := by
  intro cluster _ r e; simp [encodeRaw] at e

theorem ageOverride : ∀ cluster, Statement (.ageOverride cluster) := by
  intro cluster _ r e; simp [encodeRaw] at e

theorem recipeCommit : ∀ region value, Statement (.recipeCommit region value) := by
  intro region value _ r e; simp [encodeRaw] at e

theorem recipePrepare : ∀ cluster, Statement (.recipePrepare cluster) := by
  intro cluster _ r e; simp [encodeRaw] at e

theorem recipeGo : ∀ region, Statement (.recipeGo region) := by
  intro region _ r e; simp [encodeRaw] at e

theorem recipeSwitch : ∀ cluster, Statement (.recipeSwitch cluster) := by
  intro cluster _ r e; simp [encodeRaw] at e

theorem recipeCtlClear : ∀ cluster value, Statement (.recipeCtlClear cluster value) := by
  intro cluster value _ r e; simp [encodeRaw] at e

theorem hangWindowExpiry : ∀ region, Statement (.hangWindowExpiry region) := by
  intro region _ r e; simp [encodeRaw] at e

theorem accessTimeout : ∀ id, Statement (.accessTimeout id) := by
  intro id _ r e; simp [encodeRaw] at e

theorem tileRepair : ∀ readable, Statement (.tileRepair readable) := by
  intro readable _ r e; simp [encodeRaw] at e

theorem scrubUncorrectable : ∀ granule, Statement (.scrubUncorrectable granule) := by
  intro granule _ r e; simp [encodeRaw] at e

theorem tenCtlLoad : ∀ region, Statement (.tenCtlLoad region) := by
  intro region _ r e; simp [encodeRaw] at e

theorem tenCtlSave : ∀ region, Statement (.tenCtlSave region) := by
  intro region _ r e; simp [encodeRaw] at e

theorem tenCtlTerminate : ∀ region, Statement (.tenCtlTerminate region) := by
  intro region _ r e; simp [encodeRaw] at e

theorem sliceExpiry : ∀ region, Statement (.sliceExpiry region) := by
  intro region _ r e; simp [encodeRaw] at e

theorem drainComplete : ∀ region, Statement (.drainComplete region) := by
  intro region _ r e; simp [encodeRaw] at e

theorem drainTimeout : ∀ region, Statement (.drainTimeout region) := by
  intro region _ r e; simp [encodeRaw] at e

theorem vfReset : ∀ vf, Statement (.vfReset vf) := by
  intro vf _ r e; simp [encodeRaw] at e

theorem hostHotReset : ∀ wafer link selfTest, Statement (.hostHotReset wafer link selfTest) := by
  intro wafer link selfTest _ r e; simp [encodeRaw] at e

theorem sliceMoveStart : ∀ home entry chunk target, Statement (.sliceMoveStart home entry chunk target) := by
  intro home entry chunk target _ r e; simp [encodeRaw] at e

theorem sliceMoveLine : ∀ home entry, Statement (.sliceMoveLine home entry) := by
  intro home entry _ r e; simp [encodeRaw] at e

theorem forwardedAccess : ∀ home, Statement (.forwardedAccess home) := by
  intro home _ r e; simp [encodeRaw] at e

theorem clockSourceSwitch : ∀ port, Statement (.clockSourceSwitch port) := by
  intro port _ r e; simp [encodeRaw] at e

theorem proofingPass : ∀ fails, Statement (.proofingPass fails) := by
  intro fails _ r e; simp [encodeRaw] at e

theorem waferAdvance : ∀ wafer, Statement (.waferAdvance wafer) := by
  intro wafer _ r e; simp [encodeRaw] at e

theorem clusFreqWrite : ∀ cluster value, Statement (.clusFreqWrite cluster value) := by
  intro cluster value _ r e; simp [encodeRaw] at e

theorem railCtlWrite : ∀ island value, Statement (.railCtlWrite island value) := by
  intro island value _ r e; simp [encodeRaw] at e

theorem railChangeComplete : ∀ island, Statement (.railChangeComplete island) := by
  intro island _ r e; simp [encodeRaw] at e

theorem unitCold : ∀ matrix, Statement (.unitCold matrix) := by
  intro matrix _ r e; simp [encodeRaw] at e

theorem gtSavedWrite : ∀ region value, Statement (.gtSavedWrite region value) := by
  intro region value _ r e; simp [encodeRaw] at e

theorem nvmeSubmissionDoorbell : ∀ island queue, Statement (.nvmeSubmissionDoorbell island queue) := by
  intro island queue _ r e; simp [encodeRaw] at e

theorem nvmeCompletionDoorbell : ∀ island queue, Statement (.nvmeCompletionDoorbell island queue) := by
  intro island queue _ r e; simp [encodeRaw] at e

theorem nvmeControllerCompletion : ∀ island queue status data, Statement (.nvmeControllerCompletion island queue status data) := by
  intro island queue status data _ r e; simp [encodeRaw] at e

theorem oxsorFrame : ∀ src dst, Statement (.oxsorFrame src dst) := by
  intro src dst _ r e; simp [encodeRaw] at e

theorem oxsorPathDown : ∀ src dst, Statement (.oxsorPathDown src dst) := by
  intro src dst _ r e; simp [encodeRaw] at e

theorem powerOn : ∀ wafer selfTest, Statement (.powerOn wafer selfTest) := by
  intro wafer selfTest _ r e; simp [encodeRaw] at e

theorem managementPortReset : ∀ wafer selfTest, Statement (.managementPortReset wafer selfTest) := by
  intro wafer selfTest _ r e; simp [encodeRaw] at e

theorem lcProvision : ∀ wafer ownerKey vendorKey, Statement (.lcProvision wafer ownerKey vendorKey) := by
  intro wafer ownerKey vendorKey _ r e; simp [encodeRaw] at e

theorem lcReqSecured : ∀ wafer tokenAt, Statement (.lcReqSecured wafer tokenAt) := by
  intro wafer tokenAt _ r e; simp [encodeRaw] at e

theorem lcReqDebugOpen : ∀ wafer tokenAt, Statement (.lcReqDebugOpen wafer tokenAt) := by
  intro wafer tokenAt _ r e; simp [encodeRaw] at e

theorem lcReqReturn : ∀ wafer tokenAt, Statement (.lcReqReturn wafer tokenAt) := by
  intro wafer tokenAt _ r e; simp [encodeRaw] at e

theorem lcReqRetired : ∀ wafer tokenAt, Statement (.lcReqRetired wafer tokenAt) := by
  intro wafer tokenAt _ r e; simp [encodeRaw] at e

theorem attestationQuote : ∀ wafer nonce, Statement (.attestationQuote wafer nonce) := by
  intro wafer nonce _ r e; simp [encodeRaw] at e

theorem dbgEnSet : ∀ region, Statement (.dbgEnSet region) := by
  intro region _ r e; simp [encodeRaw] at e

theorem dbgEnClear : ∀ region, Statement (.dbgEnClear region) := by
  intro region _ r e; simp [encodeRaw] at e

theorem dbgHalt : ∀ region, Statement (.dbgHalt region) := by
  intro region _ r e; simp [encodeRaw] at e

theorem dbgGrant : ∀ region grant, Statement (.dbgGrant region grant) := by
  intro region grant _ r e; simp [encodeRaw] at e

theorem errwordRead : ∀ o, Statement (.errwordRead o) := by
  intro o h r e
  simp only [encodeRaw, Option.some.injEq] at e; subst e
  simp [wellFormed, CsrArgs.bounded] at h
  exact encCsr_fits _ (by omega)

theorem qwdomainWrite : ∀ o, Statement (.qwdomainWrite o) := by
  intro o h r e
  simp only [encodeRaw, Option.some.injEq] at e; subst e
  simp [wellFormed, CsrArgs.bounded] at h
  exact encCsr_fits _ (by omega)

theorem qbindCsrWrite : ∀ o, Statement (.qbindCsrWrite o) := by
  intro o h r e
  simp only [encodeRaw, Option.some.injEq] at e; subst e
  simp [wellFormed, CsrArgs.bounded] at h
  exact encCsr_fits _ (by omega)

theorem fxflagsAccess : ∀ o, Statement (.fxflagsAccess o) := by
  intro o h r e
  simp only [encodeRaw, Option.some.injEq] at e; subst e
  simp [wellFormed, CsrArgs.bounded] at h
  exact encCsr_fits _ (by omega)

theorem linkStatRead : ∀ port, Statement (.linkStatRead port) := by
  intro port _ r e; simp [encodeRaw] at e

theorem npovrRead : ∀ region, Statement (.npovrRead region) := by
  intro region _ r e; simp [encodeRaw] at e

theorem proofStatRead : ∀ island, Statement (.proofStatRead island) := by
  intro island _ r e; simp [encodeRaw] at e

theorem proofCntRead : ∀ island, Statement (.proofCntRead island) := by
  intro island _ r e; simp [encodeRaw] at e

theorem curStepLimitRead : ∀ cluster, Statement (.curStepLimitRead cluster) := by
  intro cluster _ r e; simp [encodeRaw] at e

theorem registerWrite : ∀ target value, Statement (.registerWrite target value) := by
  intro target value _ r e; simp [encodeRaw] at e

theorem illegalInstruction : ∀ word, Statement (.illegalInstruction word) := by
  intro word _ r e; simp [encodeRaw] at e

theorem domainStateWrite : ∀ region domain value, Statement (.domainStateWrite region domain value) := by
  intro region domain value _ r e; simp [encodeRaw] at e

theorem routeOvrWrite : ∀ entry value, Statement (.routeOvrWrite entry value) := by
  intro entry value _ r e; simp [encodeRaw] at e

theorem placementImageLoad : ∀ region origin ports image, Statement (.placementImageLoad region origin ports image) := by
  intro region origin ports image _ r e; simp [encodeRaw] at e

theorem hostWindowAccess : ∀ wafer pa len write, Statement (.hostWindowAccess wafer pa len write) := by
  intro wafer pa len write _ r e; simp [encodeRaw] at e

theorem oxsorRetransmit : ∀ src dst, Statement (.oxsorRetransmit src dst) := by
  intro src dst _ r e; simp [encodeRaw] at e

theorem ecall : Statement (.ecall) := by
  intro h r e
  simp only [encodeRaw, Option.some.injEq] at e; subst e
  simp [rawFits]

theorem ebreak : Statement (.ebreak) := by
  intro h r e
  simp only [encodeRaw, Option.some.injEq] at e; subst e
  simp [rawFits]

theorem wfi : Statement (.wfi) := by
  intro h r e
  simp only [encodeRaw, Option.some.injEq] at e; subst e
  simp [rawFits]

theorem longLatencyParkResume : Statement (.longLatencyParkResume) := by
  intro _ r e; simp [encodeRaw] at e

theorem portStreamWake : Statement (.portStreamWake) := by
  intro _ r e; simp [encodeRaw] at e

theorem wfiWake : Statement (.wfiWake) := by
  intro _ r e; simp [encodeRaw] at e

theorem slotwaitBoundary : Statement (.slotwaitBoundary) := by
  intro _ r e; simp [encodeRaw] at e

theorem grejoinReunion : Statement (.grejoinReunion) := by
  intro _ r e; simp [encodeRaw] at e

theorem gsyncRelease : Statement (.gsyncRelease) := by
  intro _ r e; simp [encodeRaw] at e

theorem matrixEntryStart : Statement (.matrixEntryStart) := by
  intro _ r e; simp [encodeRaw] at e

theorem tileReset : Statement (.tileReset) := by
  intro _ r e; simp [encodeRaw] at e

theorem islandStop : Statement (.islandStop) := by
  intro _ r e; simp [encodeRaw] at e

theorem islandResume : Statement (.islandResume) := by
  intro _ r e; simp [encodeRaw] at e

theorem islandTerminateTask : Statement (.islandTerminateTask) := by
  intro _ r e; simp [encodeRaw] at e

theorem portWord : Statement (.portWord) := by
  intro _ r e; simp [encodeRaw] at e

theorem streamData : Statement (.streamData) := by
  intro _ r e; simp [encodeRaw] at e

theorem taskRecord : Statement (.taskRecord) := by
  intro _ r e; simp [encodeRaw] at e

theorem memoryResponse : Statement (.memoryResponse) := by
  intro _ r e; simp [encodeRaw] at e

theorem errorMessage : Statement (.errorMessage) := by
  intro _ r e; simp [encodeRaw] at e

theorem borrowGrant : Statement (.borrowGrant) := by
  intro _ r e; simp [encodeRaw] at e

theorem borrowRefusal : Statement (.borrowRefusal) := by
  intro _ r e; simp [encodeRaw] at e

theorem watchWake : Statement (.watchWake) := by
  intro _ r e; simp [encodeRaw] at e

theorem watchRetry : Statement (.watchRetry) := by
  intro _ r e; simp [encodeRaw] at e

theorem quiescenceWake : Statement (.quiescenceWake) := by
  intro _ r e; simp [encodeRaw] at e

theorem syscallReply : Statement (.syscallReply) := by
  intro _ r e; simp [encodeRaw] at e

theorem domainAllocationReply : Statement (.domainAllocationReply) := by
  intro _ r e; simp [encodeRaw] at e

theorem syscallNop : Statement (.syscallNop) := by
  intro _ r e; simp [encodeRaw] at e

theorem closeFile : Statement (.closeFile) := by
  intro _ r e; simp [encodeRaw] at e

theorem nvqopen : Statement (.nvqopen) := by
  intro _ r e; simp [encodeRaw] at e

theorem nvqclose : Statement (.nvqclose) := by
  intro _ r e; simp [encodeRaw] at e

theorem exitCall : Statement (.exitCall) := by
  intro _ r e; simp [encodeRaw] at e

theorem dbggrant : Statement (.dbggrant) := by
  intro _ r e; simp [encodeRaw] at e

theorem copyUnitIssue : Statement (.copyUnitIssue) := by
  intro _ r e; simp [encodeRaw] at e

theorem landingPacketArrival : Statement (.landingPacketArrival) := by
  intro _ r e; simp [encodeRaw] at e

theorem handlerStart : Statement (.handlerStart) := by
  intro _ r e; simp [encodeRaw] at e

theorem handlerLimit : Statement (.handlerLimit) := by
  intro _ r e; simp [encodeRaw] at e

theorem copyRequestComplete : Statement (.copyRequestComplete) := by
  intro _ r e; simp [encodeRaw] at e

theorem copyIncrementAck : Statement (.copyIncrementAck) := by
  intro _ r e; simp [encodeRaw] at e

theorem sliceEndEvent : Statement (.sliceEndEvent) := by
  intro _ r e; simp [encodeRaw] at e

theorem evictionSave : Statement (.evictionSave) := by
  intro _ r e; simp [encodeRaw] at e

theorem tileQuarantine : Statement (.tileQuarantine) := by
  intro _ r e; simp [encodeRaw] at e

theorem routerParityError : Statement (.routerParityError) := by
  intro _ r e; simp [encodeRaw] at e

theorem tileSilent : Statement (.tileSilent) := by
  intro _ r e; simp [encodeRaw] at e

theorem faultReportRearm : Statement (.faultReportRearm) := by
  intro _ r e; simp [encodeRaw] at e

theorem npWatchdog : Statement (.npWatchdog) := by
  intro _ r e; simp [encodeRaw] at e

theorem droopAlarm : Statement (.droopAlarm) := by
  intro _ r e; simp [encodeRaw] at e

theorem wakeAdmission : Statement (.wakeAdmission) := by
  intro _ r e; simp [encodeRaw] at e

theorem debugSingleStep : Statement (.debugSingleStep) := by
  intro _ r e; simp [encodeRaw] at e

theorem debugResume : Statement (.debugResume) := by
  intro _ r e; simp [encodeRaw] at e

theorem breakpointHalt : Statement (.breakpointHalt) := by
  intro _ r e; simp [encodeRaw] at e

theorem landStatClear : Statement (.landStatClear) := by
  intro _ r e; simp [encodeRaw] at e

theorem landCntRead : Statement (.landCntRead) := by
  intro _ r e; simp [encodeRaw] at e

theorem droopCntRead : Statement (.droopCntRead) := by
  intro _ r e; simp [encodeRaw] at e

theorem clkSrcRead : Statement (.clkSrcRead) := by
  intro _ r e; simp [encodeRaw] at e

theorem npLimitOverrun : Statement (.npLimitOverrun) := by
  intro _ r e; simp [encodeRaw] at e


end FieldsFit
end Sys2Proof.Laws
end

