-- ==== Sys2Proof/Laws/SaveArea.lean ====
section
/-!
SUPPORT. The context area and the swap slots (17 R364 to R366): writing them keeps the canonical form, and changes no byte outside them.
-/
namespace Sys2Proof.Machine

theorem Memory.wf_putWords (ws : List Nat) (m : Memory) (a : Nat) (h : m.wf = true) : (m.putWords a ws).wf = true := by
  induction ws generalizing m a with
  | nil => exact h
  | cons w r ih =>
    refine ih _ _ ?_
    split
    · exact h
    · exact wf_writeNat _ _ _ _ h

theorem Memory.wf_putItems (l : List AreaItem) (m : Memory) (a : Nat) (h : m.wf = true) : (m.putItems a l).wf = true := by
  induction l generalizing m with
  | nil => exact h
  | cons i r ih => exact ih _ (wf_putWords _ _ _ h)

theorem wf_fold {α : Type} (f : Memory → α → Memory) (hf : ∀ m x, m.wf = true → (f m x).wf = true) (l : List α) (m : Memory)
    (h : m.wf = true) : (l.foldl f m).wf = true := by
  induction l generalizing m with
  | nil => exact h
  | cons x r ih => exact ih _ (hf _ _ h)

theorem writeArea_wf (s : State) (r : Nat) (tiles : List (Nat × Tile)) (pads : List Host.Cell) (m : Memory) (h : m.wf = true) :
    (s.writeArea r tiles pads m).wf = true := by
  refine Memory.wf_putItems _ _ _ (wf_fold _ (fun m x hm => Memory.wf_write _ _ _ hm) _ _ (wf_fold _ (fun m x hm => ?_) _ _
    (wf_fold _ (fun m x hm => ?_) _ _ (Memory.wf_wipe _ _ _ h))))
  · exact Memory.wf_putItems _ _ _ hm
  · exact Memory.wf_putItems _ _ _ hm

theorem writeSwap_wf (s : State) (r c n : Nat) (w : Swapped) (b : Bool) (m : Memory) (h : m.wf = true) :
    (s.writeSwap r c n w b m).wf = true := Memory.wf_putItems _ _ _ (Memory.wf_wipe _ _ _ h)

/-! No byte outside changes -/

theorem Memory.read_putWords_other (ws : List Nat) (m : Memory) (a k : Nat) (h : ¬(a ≤ k ∧ k < a + 8 * ws.length)) :
    (m.putWords a ws).read k = m.read k := by
  induction ws generalizing m a with
  | nil => rfl
  | cons w r ih =>
    simp only [List.length_cons] at h
    rw [Memory.putWords, ih _ _ (by omega)]
    split
    · rfl
    · exact read_writeBytes_other _ _ _ _ (by rw [natBytes_length]; omega)

/-- Items that lie in the first `n` bytes after a key leave all else alone. -/
theorem Memory.read_putItems_other (l : List AreaItem) (m : Memory) (a n k : Nat) (hl : ∀ i ∈ l, i.off + 8 * i.size ≤ n)
    (h : ¬(a ≤ k ∧ k < a + n)) : (m.putItems a l).read k = m.read k := by
  induction l generalizing m with
  | nil => rfl
  | cons i r ih =>
    have hi := hl i (by simp)
    have e : (m.putItems a (i :: r)) = (m.putWords (a + i.off) (i.words.take i.size)).putItems a r := rfl
    rw [e, ih _ (fun j hj => hl j (by simp [hj])), read_putWords_other]
    have : (i.words.take i.size).length ≤ i.size := by simp
    omega

theorem read_fold {α : Type} (f : Memory → α → Memory) (k : Nat) (l : List α) (hf : ∀ m, ∀ x ∈ l, (f m x).read k = m.read k) (m : Memory) :
    (l.foldl f m).read k = m.read k := by
  induction l generalizing m with
  | nil => rfl
  | cons x r ih => rw [List.foldl_cons, ih (fun m y hy => hf m y (by simp [hy])), hf m x (by simp)]

theorem writeSwap_read (s : State) (r c n : Nat) (w : Swapped) (b : Bool) (m : Memory) (k : Nat)
    (h : ¬(s.swapKey r c n ≤ k ∧ k < s.swapKey r c n + 16384)) : (s.writeSwap r c n w b m).read k = m.read k := by
  unfold State.writeSwap
  dsimp only
  rw [Memory.read_putItems_other _ _ _ 16384 _ (fun i hi => ?_) h, Memory.read_wipe, if_neg h]
  simp only [swapItems, List.mem_append, List.mem_cons, List.not_mem_nil, or_false] at hi
  rcases hi with ((rfl | rfl | rfl | rfl | rfl | rfl) | hi) | hi
  iterate 6 (· dsimp only; omega)
  · split at hi
    · simp only [List.mem_cons, List.not_mem_nil, or_false] at hi
      rcases hi with rfl | rfl | rfl <;> dsimp only <;> omega
    · cases hi
  · split at hi
    · simp only [List.mem_singleton] at hi
      subst hi; show 0x3FE0 + 8 * 4 ≤ 16384; omega
    · cases hi

theorem clusterIndex_lt (cs : List Nat) (c : Nat) (h : c ∈ cs) : clusterIndex cs c < cs.length := by
  unfold clusterIndex
  rcases lt_or_eq_of_le (List.length_filter_le (fun d => decide (d < c)) cs) with h' | h'
  · exact h'
  · have := List.length_filter_eq_length_iff.1 h' c h
    simp at this

theorem localOf_lt (g : Nat) : localOf g < 192 := by unfold localOf; omega

/-- The tiles of a cluster lie in it. -/
theorem clusterOf_tiles (c g : Nat) (h : g ∈ clusterTiles c) : clusterOf g = c := by
  obtain ⟨l, hl, rfl⟩ := List.mem_map.1 h
  have hl := List.mem_range.1 hl
  unfold clusterOf clusterAt tileIn tileOf waferOf yOf xOf waferTiles
  omega

theorem slotOff_le (cs : List Nat) (g : Nat) (h : clusterOf g ∈ cs) : slotOff cs g + 0x2C000 ≤ areaSize cs.length := by
  have a := clusterIndex_lt cs _ h
  have b := localOf_lt g
  unfold slotOff areaSize
  omega

theorem clusterItems_fit (k : Cluster) : ∀ i ∈ clusterItems k, i.off + 8 * i.size ≤ 0x21000 := by
  intro i hi
  simp only [clusterItems, List.mem_append, List.mem_cons, List.not_mem_nil, or_false, List.mem_map, List.mem_range] at hi
  rcases hi with (rfl | rfl) | ⟨n, hn, rfl⟩
  · show 0 + 8 * 47 ≤ 0x21000; decide
  · show 0x178 + 8 * 128 ≤ 0x21000; decide
  · show 0x1000 + 0x2000 * n + 8 * 1024 ≤ 0x21000; omega

theorem tileItems_fit (s : State) (g : Nat) (t : Tile) : ∀ i ∈ tileItems s g t, i.off + 8 * i.size ≤ 0xC000 := by
  intro i hi
  simp only [tileItems, List.mem_append, List.mem_cons, List.not_mem_nil, or_false, List.mem_map, List.mem_range] at hi
  rcases hi with ((rfl | rfl | rfl | rfl | rfl | rfl | rfl) | ⟨n, hn, rfl⟩) | (rfl | rfl | rfl | rfl | rfl | rfl | rfl | rfl | rfl)
  all_goals (dsimp only; omega)

theorem headItems_fit (s : State) (r : Nat) : ∀ i ∈ headItems s r, i.off + 8 * i.size ≤ 0x10000 := by
  intro i hi
  simp only [headItems, List.mem_cons, List.not_mem_nil, or_false] at hi
  rcases hi with rfl | rfl
  · show 0x40 + 8 * 128 ≤ 0x10000; decide
  · show 0 + 8 * 8 ≤ 0x10000; decide

/-- The area, where the scratchpad cells are those of the region's clusters: no byte outside it changes. -/
theorem writeArea_read (s : State) (r : Nat) (tiles : List (Nat × Tile)) (pads : List Host.Cell) (m : Memory) (k : Nat)
    (hp : ∀ c ∈ pads, clusterOf (c.1 / 131072) ∈ (s.region r).clusters)
    (h : ¬(edgeKey (r / 256) (s.region r).ctxBase ≤ k ∧
      k < edgeKey (r / 256) (s.region r).ctxBase + areaSize (s.region r).clusters.length)) :
    (s.writeArea r tiles pads m).read k = m.read k := by
  have h0 : 0x10000 ≤ areaSize (s.region r).clusters.length := by unfold areaSize; omega
  unfold State.writeArea
  dsimp only
  rw [Memory.read_putItems_other _ _ _ 0x10000 _ (headItems_fit s r) (by omega),
    read_fold _ _ _ (fun m c hc => ?_), read_fold _ _ _ (fun m x hx => ?_), read_fold _ _ _ (fun m c hc => ?_), Memory.read_wipe, if_neg h]
  · refine Memory.read_putItems_other _ _ _ 0x21000 _ (clusterItems_fit _) ?_
    have := clusterIndex_lt _ _ hc
    unfold areaSize at h
    omega
  · refine Memory.read_putItems_other _ _ _ 0xC000 _ (tileItems_fit _ _ _) ?_
    obtain ⟨l, hl, hx⟩ := List.mem_flatten.1 hx
    obtain ⟨c, hc, rfl⟩ := List.mem_map.1 hl
    have := slotOff_le (s.region r).clusters x (by rw [clusterOf_tiles c x hx]; exact hc)
    omega
  · have := slotOff_le _ _ (hp c hc)
    rw [Memory.read_write, if_neg (by omega)]

end Sys2Proof.Machine
end

