-- ==== Sys2Proof/Tests/Slice0.lean ====
section
/-!
SUPPORT. Tests of the model on words and small states, and for each statement a state and operands that meet its hypotheses. The words
come from the encodings of 02 R32 to R40 and the worked listings of chapters 11 and 22; expected results are worked out from the rules
that a test names.
-/
set_option Elab.async false
set_option maxRecDepth 8192
set_option exponentiation.threshold 2000
namespace Sys2Proof.Tests
open Sys2Proof Sys2Proof.Machine

/-! Well-formedness: each limit refuses a term that breaks it -/

/-- 02 R33: a destination of K = 1 is a port 0 to 3; a source 0 to 3 or 8 to 15. -/
theorem test_wf_port : wellFormed (.madd ⟨false, true, false, false, 4, 1, 1⟩) = false ∧
    wellFormed (.madd ⟨false, false, true, false, 4, 4, 1⟩) = false ∧ wellFormed (.madd ⟨false, false, false, true, 4, 1, 16⟩) = false ∧
    wellFormed (.madd ⟨false, true, true, true, 3, 3, 15⟩) = true ∧ wellFormed (.madd ⟨false, false, false, false, 32, 1, 1⟩) = false ∧
    wellFormed (.mmov ⟨false, false, true, false, 9, 8, 1⟩) = false := by decide
/-- 07 R176, R179, 15 R333, 08 R195: limits of single fields, and reserved fields that must be zero. -/
theorem test_wf_custom0 : wellFormed (.send ⟨false, 12, 1, 1⟩) = false ∧ wellFormed (.send ⟨false, 11, 31, 31⟩) = true ∧
    wellFormed (.qbind ⟨false, 8, 1, 1⟩) = false ∧ wellFormed (.qfree ⟨false, 7, 1, 0⟩) = false ∧
    wellFormed (.qcount ⟨false, 31, 8, 0⟩) = false ∧ wellFormed (.mvc ⟨false, 1, 1, 1⟩) = false ∧
    wellFormed (.tstamp ⟨false, 1, 1, 0⟩) = false ∧ wellFormed (.slotwait ⟨false, 1, 1, 0⟩) = false ∧
    wellFormed (.lld ⟨false, 1, 1, 1⟩) = false ∧ wellFormed (.lst ⟨false, 1, 1, 1⟩) = false ∧
    wellFormed (.lcrc ⟨false, 32, 1, 1⟩) = false ∧ wellFormed (.lcommit ⟨false, 0, 1, 0⟩) = false ∧
    wellFormed (.linfo ⟨false, 1, 7, 0⟩) = false ∧ wellFormed (.taskinfo ⟨false, 1, 9, 0⟩) = false ∧
    wellFormed (.taskinfo ⟨false, 1, 16, 0⟩) = true := by decide
/-- 13 R287, 04 R80, R84: fence sets and scope, loop length, repeat count. -/
theorem test_wf_control : wellFormed (.fencex false 16 0 0) = false ∧ wellFormed (.fencex false 15 15 6) = false ∧
    wellFormed (.lpset false 0 1) = false ∧ wellFormed (.lpset false 2048 1) = false ∧ wellFormed (.lpset false 2047 31) = true ∧
    wellFormed (.rep false 0 1 0) = false ∧ wellFormed (.rep false 65 1 0) = false ∧ wellFormed (.rep false 64 7 3) = true ∧
    wellFormed (.rep false 1 8 0) = false := by decide
/-- 02 R34, 05 R98, R114, R115, R123, R129: element types and predicate fields. -/
theorem test_wf_vector : wellFormed (.vadd ⟨false, 7, 0, 1, 1, 1⟩) = false ∧ wellFormed (.vadd ⟨false, 2, 4, 1, 1, 1⟩) = false ∧
    wellFormed (.vbit ⟨false, 4, 0, 1, 1, 1⟩) = false ∧ wellFormed (.vsel ⟨false, 7, 3, 31, 31, 32⟩) = false ∧
    wellFormed (.vcmp ⟨false, 7, 0, 1, 1, 1⟩) = false ∧ wellFormed (.vgath ⟨false, 0, 0, 29, 1, 1⟩) = false ∧
    wellFormed (.vgath ⟨false, 0, 0, 28, 1, 1⟩) = true ∧ wellFormed (.vneg ⟨false, 7, 0, 1, 1⟩) = false ∧
    wellFormed (.vmov ⟨false, 8, 0, 1, 1⟩) = false ∧ wellFormed (.vsplatx ⟨false, 4, 0, 1, 1⟩) = false ∧
    wellFormed (.vsplatf ⟨false, 3, 0, 1, 1⟩) = false ∧ wellFormed (.vextx ⟨false, 2, 1, 1, 1⟩) = false ∧
    wellFormed (.viota ⟨false, 2, 0, 1, 1⟩) = false ∧ wellFormed (.vquery ⟨false, 0, 0, 1, 1⟩) = false ∧
    wellFormed (.vcvt 18 ⟨false, 2, 0, 1, 1⟩) = false ∧ wellFormed (.vcvtsr 27 ⟨false, 4, 0, 1, 1⟩) = false := by decide
/-- 02 R38, R39, 06 R143, 15 R335: predicates, products, accumulators, copies. -/
theorem test_wf_matrix : wellFormed (.pand ⟨false, 1, 0, 1, 1⟩) = false ∧ wellFormed (.pnot ⟨false, 0, 0, 8, 1⟩) = false ∧
    wellFormed (.pcount ⟨false, 0, 1, 1, 1⟩) = false ∧ wellFormed (.pwhilelt ⟨false, 0, 0, 31, 1⟩) = false ∧
    wellFormed (.mmaE4e4 ⟨false, 32, 1, 1, false, false, false, 0⟩) = false ∧
    wellFormed (.mmaE4e4 ⟨false, 31, 1, 1, true, true, true, 4⟩) = false ∧
    wellFormed (.mmaBf ⟨false, 1, 1, 1, false, false, false, 0⟩) = false ∧ wellFormed (.maccZero ⟨false, 4, 0, 0⟩) = false ∧
    wellFormed (.maccSt ⟨false, 0, 1, 2⟩) = false ∧ wellFormed (.maccStp ⟨false, 0, 1, 1⟩) = false ∧
    wellFormed (.maccLdp ⟨false, 0, 1, 4⟩) = false ∧ wellFormed (.maccRow ⟨false, 32, 1, 4⟩) = false ∧
    wellFormed (.cqpush ⟨false, 0, 29, 0⟩) = false ∧ wellFormed (.cqtry ⟨false, 1, 0, 0⟩) = false ∧
    wellFormed (.cqctlWait ⟨false, 0, 0, 0⟩) = false := by decide
/-- 02 R40: fields of the base words. -/
theorem test_wf_base : wellFormed (.load .lw 1 1 2048) = false ∧ wellFormed (.store .sw 1 1 (-2049)) = false ∧
    wellFormed (.amo .add false false false 32 1 1) = false ∧ wellFormed (.lr false false false 1 32) = false ∧
    wellFormed (.sc false false false 1 1 32) = false ∧ wellFormed (.fence 8 3 3 0 0) = false ∧ wellFormed (.fenceTso 32 0) = false ∧
    wellFormed (.fenceI 0 0 4096) = false ∧ wellFormed (.csrAccess ⟨.rw, false, 0xCC6, 0, 0⟩) = false ∧
    wellFormed (.errwordRead ⟨.rw, false, 0x80B, 0, 0⟩) = false ∧ wellFormed (.fxflagsAccess ⟨.rw, false, 0xCC6, 0, 0⟩) = false ∧
    wellFormed (.qwdomainWrite ⟨.rs, false, 0x80C, 1, 0⟩) = false ∧ wellFormed (.qbindCsrWrite ⟨.rw, false, 0x818, 1, 0⟩) = false ∧
    wellFormed (.controlTransfer .jal 1 0 0 1) = false ∧ wellFormed (.controlTransfer .beq 1 0 0 4) = false ∧
    wellFormed (.integerOp .slli 1 1 0 64) = false ∧ wellFormed (.integerOp .slliw 1 1 0 32) = false ∧
    wellFormed (.integerOp .lui 1 1 0 0) = false ∧ wellFormed (.integerOp .add 1 1 1 1) = false ∧
    wellFormed (.integerOp .clz 1 1 1 0) = false ∧ wellFormed (.fpOp .fadd 5 1 1 1 0) = false ∧
    wellFormed (.fpOp .fsqrt 0 1 1 1 0) = false ∧ wellFormed (.fpOp .feq 1 1 1 1 0) = false ∧
    wellFormed (.fpOp .fclass 0 1 1 0 1) = false ∧ wellFormed (.fpOp .fmadd 7 31 31 31 32) = false := by decide

/-! Decoding: words of the spec -/

/-- The words of the listings of chapters 11 and 22. -/
theorem test_decode_listings : ∀ p ∈ ([
  (0x0372802B, .spawnt ⟨false, 0, 5, 23⟩), (0x009D210B, .send ⟨false, 2, 26, 9⟩), (0x021D210B, .sendv ⟨false, 2, 26, 1⟩),
  (0x2804148B, .mmov ⟨false, false, true, false, 9, 8, 0⟩), (0x8600308B, .qpopv ⟨true, 1, 0, 0⟩),
  (0x1230625B, .vsplatx ⟨false, 1, 0, 0, 4⟩), (0x5242E2DB, .vsplatf ⟨false, 5, 0, 5, 5⟩), (0x5050B25B, .vfma ⟨false, 5, 0, 5, 1, 4⟩),
  (0x520320DB, .vld ⟨false, 5, 0, 0, 6, 1⟩), (0x502181DB, .vadd ⟨false, 5, 0, 2, 3, 3⟩), (0x520E31DB, .vst ⟨false, 5, 0, 0, 28, 3⟩),
  (0x0204C00B, .slotwait ⟨false, 0, 9, 0⟩), (0x0000428B, .tstamp ⟨false, 5, 0, 0⟩), (0x0803228B, .mvc ⟨false, 5, 6, 0⟩),
  (0x0403400B, .pwrhint ⟨false, 0, 6, 0⟩), (0x2062827B, .mmaE4e4 ⟨false, 8, 6, 5, false, false, true, 0⟩),
  (0x24D6007B, .mmaE4e4 ⟨false, 9, 13, 12, false, false, false, 0⟩), (0x0217207B, .maccSt ⟨false, 0, 14, 1⟩),
  (0x0227A07B, .maccStp ⟨false, 0, 15, 2⟩), (0x0E0072AB, .errinfo ⟨false, 5, 0, 0⟩)] : List (Nat × Instr)),
  decode p.1 = .ok p.2 := by decide

/-- Words written out from the encodings of the opcode table: every operand field has a value of its own. -/
theorem test_decode_port : ∀ p ∈ ([
  (0xA1B50A8B, .madd ⟨true, false, true, false, 21, 10, 27⟩), (0xA3B50A8B, .msub ⟨true, false, true, false, 21, 10, 27⟩),
  (0xA5B50A8B, .mand ⟨true, false, true, false, 21, 10, 27⟩), (0xA7B50A8B, .mor ⟨true, false, true, false, 21, 10, 27⟩),
  (0xA9B50A8B, .mxor ⟨true, false, true, false, 21, 10, 27⟩), (0xABB50A8B, .msll ⟨true, false, true, false, 21, 10, 27⟩),
  (0xADB50A8B, .msrl ⟨true, false, true, false, 21, 10, 27⟩), (0xAFB50A8B, .msra ⟨true, false, true, false, 21, 10, 27⟩),
  (0xA1B51A8B, .mmin ⟨true, false, true, false, 21, 10, 27⟩), (0xA3B51A8B, .mmax ⟨true, false, true, false, 21, 10, 27⟩),
  (0xA5B51A8B, .mminu ⟨true, false, true, false, 21, 10, 27⟩), (0xA7B51A8B, .mmaxu ⟨true, false, true, false, 21, 10, 27⟩),
  (0xA8051A8B, .mmov ⟨true, false, true, false, 21, 10, 0⟩), (0xABB51A8B, .mfadd ⟨true, false, true, false, 21, 10, 27⟩),
  (0xADB51A8B, .mfmul ⟨true, false, true, false, 21, 10, 27⟩), (0xAFB51A8B, .mfmax ⟨true, false, true, false, 21, 10, 27⟩)] : List (Nat × Instr)), decode p.1 = .ok p.2 := by decide

/-- Words written out from the encodings of the opcode table: every operand field has a value of its own. -/
theorem test_decode_custom0 : ∀ p ∈ ([
  (0x8093258B, .send ⟨true, 11, 6, 9⟩), (0x8293258B, .sendv ⟨true, 11, 6, 9⟩), (0x8803228B, .mvc ⟨true, 5, 6, 0⟩),
  (0x8093328B, .qbind ⟨true, 5, 6, 9⟩), (0x8200328B, .qfree ⟨true, 5, 0, 0⟩), (0x8403328B, .qcount ⟨true, 5, 6, 0⟩),
  (0x8603328B, .qpopv ⟨true, 5, 6, 0⟩), (0x8000428B, .tstamp ⟨true, 5, 0, 0⟩), (0x8203400B, .slotwait ⟨true, 0, 6, 0⟩),
  (0x8403400B, .pwrhint ⟨true, 0, 6, 0⟩), (0x8003528B, .lld ⟨true, 5, 6, 0⟩), (0x8293500B, .lst ⟨true, 0, 6, 9⟩),
  (0x8493528B, .lcrc ⟨true, 5, 6, 9⟩), (0x8603528B, .ldec ⟨true, 5, 6, 0⟩), (0x8893528B, .lcvt ⟨true, 5, 6, 9⟩),
  (0x8A00500B, .lcommit ⟨true, 0, 0, 0⟩), (0x8C03500B, .ldrop ⟨true, 0, 6, 0⟩), (0x8E03528B, .linfo ⟨true, 5, 6, 0⟩)] : List (Nat × Instr)), decode p.1 = .ok p.2 := by decide

/-- Words written out from the encodings of the opcode table: every operand field has a value of its own. -/
theorem test_decode_custom1 : ∀ p ∈ ([
  (0x8003002B, .spawn ⟨true, 0, 6, 0⟩), (0x8293002B, .spawnt ⟨true, 0, 6, 9⟩), (0x8400002B, .tend ⟨true, 0, 0, 0⟩),
  (0x8603002B, .jdec ⟨true, 0, 6, 0⟩), (0x880302AB, .taskinfo ⟨true, 5, 6, 0⟩), (0x800012AB, .qwroot ⟨true, 5, 0, 0⟩),
  (0x820312AB, .qwait ⟨true, 5, 6, 0⟩), (0x840012AB, .qwheld ⟨true, 5, 0, 0⟩), (0x8600102B, .qwret ⟨true, 0, 0, 0⟩),
  (0x8803102B, .qwdone ⟨true, 0, 6, 0⟩), (0x800322AB, .barrive ⟨true, 5, 6, 0⟩), (0x8293202B, .bwait ⟨true, 0, 6, 9⟩),
  (0x8493202B, .cwaitge ⟨true, 0, 6, 9⟩), (0x869322AB, .ctest ⟨true, 5, 6, 9⟩), (0x800332AB, .gjoin ⟨true, 5, 6, 0⟩),
  (0x8200302B, .gleave ⟨true, 0, 0, 0⟩), (0x8400302B, .grejoin ⟨true, 0, 0, 0⟩), (0x8600302B, .gsync ⟨true, 0, 0, 0⟩),
  (0x880032AB, .ginfo ⟨true, 5, 0, 0⟩), (0x800072AB, .rng64 ⟨true, 5, 0, 0⟩), (0x820072AB, .rngf ⟨true, 5, 0, 0⟩),
  (0x840072AB, .rngv ⟨true, 5, 0, 0⟩), (0x8603702B, .rngjump ⟨true, 0, 6, 0⟩), (0x8800702B, .npenter ⟨true, 0, 0, 0⟩),
  (0x8A00702B, .npexit ⟨true, 0, 0, 0⟩), (0x8C0072AB, .slice ⟨true, 5, 0, 0⟩), (0x8E0072AB, .errinfo ⟨true, 5, 0, 0⟩)] : List (Nat × Instr)), decode p.1 = .ok p.2 := by decide

/-- Words written out from the encodings of the opcode table: every operand field has a value of its own. -/
theorem test_decode_vector : ∀ p ∈ ([
  (0xA4930ADB, .vadd ⟨true, 2, 1, 9, 6, 21⟩), (0xA4931ADB, .vsub ⟨true, 2, 1, 9, 6, 21⟩), (0xA4932ADB, .vmul ⟨true, 2, 1, 9, 6, 21⟩),
  (0xA4933ADB, .vfma ⟨true, 2, 1, 9, 6, 21⟩), (0xA4934ADB, .vmin ⟨true, 2, 1, 9, 6, 21⟩), (0xA4935ADB, .vmax ⟨true, 2, 1, 9, 6, 21⟩),
  (0xA4936ADB, .vbit ⟨true, 2, 1, 9, 6, 21⟩), (0xA4937ADB, .vshift ⟨true, 2, 1, 9, 6, 21⟩), (0xA69309DB, .vcmp ⟨true, 2, 1, 9, 6, 19⟩),
  (0xA6931ADB, .vsel ⟨true, 2, 1, 9, 6, 21⟩), (0xA6932ADB, .vld ⟨true, 2, 1, 9, 6, 21⟩), (0xA6933ADB, .vst ⟨true, 2, 1, 9, 6, 21⟩),
  (0xA6934ADB, .vgath ⟨true, 2, 1, 9, 6, 21⟩), (0xA6935ADB, .vscat ⟨true, 2, 1, 9, 6, 21⟩)] : List (Nat × Instr)), decode p.1 = .ok p.2 := by decide

/-- Words written out from the encodings of the opcode table: every operand field has a value of its own. -/
theorem test_decode_vector_unary : ∀ p ∈ ([
  (0xAA0362DB, .vneg ⟨true, 2, 2, 6, 5⟩), (0xAA1362DB, .vabs ⟨true, 2, 2, 6, 5⟩), (0xAA2362DB, .vmov ⟨true, 2, 2, 6, 5⟩),
  (0xAA3362DB, .vsplatx ⟨true, 2, 2, 6, 5⟩), (0xEA4362DB, .vsplatf ⟨true, 6, 2, 6, 5⟩), (0xA25362DB, .vextx ⟨true, 2, 0, 6, 5⟩),
  (0xEA6362DB, .vrcp ⟨true, 6, 2, 6, 5⟩), (0xEA7362DB, .vrsqrt ⟨true, 6, 2, 6, 5⟩), (0xEA8362DB, .vexp2 ⟨true, 6, 2, 6, 5⟩),
  (0xEA9362DB, .vlog2 ⟨true, 6, 2, 6, 5⟩), (0xEAA362DB, .vtanh ⟨true, 6, 2, 6, 5⟩), (0xEAB362DB, .vsigm ⟨true, 6, 2, 6, 5⟩),
  (0xAAC362DB, .vredsum ⟨true, 2, 2, 6, 5⟩), (0xAAD362DB, .vredmax ⟨true, 2, 2, 6, 5⟩), (0xAAE362DB, .vredmin ⟨true, 2, 2, 6, 5⟩),
  (0xAAF062DB, .viota ⟨true, 2, 2, 0, 5⟩), (0x83E062DB, .vquery ⟨true, 0, 0, 0, 5⟩), (0xABF362DB, .vperm ⟨true, 2, 2, 6, 5⟩),
  (0x8A0772DB, .pand ⟨true, 0, 2, 14, 5⟩), (0x8A1772DB, .por ⟨true, 0, 2, 14, 5⟩), (0x8A2772DB, .pxor ⟨true, 0, 2, 14, 5⟩),
  (0x8A3372DB, .pnot ⟨true, 0, 2, 6, 5⟩), (0x824372DB, .pcount ⟨true, 0, 0, 6, 5⟩), (0x8A5372DB, .pfirst ⟨true, 0, 2, 6, 5⟩),
  (0xAA6372DB, .pwhilelt ⟨true, 2, 2, 6, 5⟩)] : List (Nat × Instr)), decode p.1 = .ok p.2 := by decide

/-- Words written out from the encodings of the opcode table: every operand field has a value of its own. -/
theorem test_decode_matrix : ∀ p ∈ ([
  (0xF8930B7B, .mmaE4e4 ⟨true, 30, 9, 6, true, false, true, 2⟩), (0xF8931B7B, .mmaE4e5 ⟨true, 30, 9, 6, true, false, true, 2⟩),
  (0xF8932B7B, .mmaE5e4 ⟨true, 30, 9, 6, true, false, true, 2⟩), (0xF8933B7B, .mmaE5e5 ⟨true, 30, 9, 6, true, false, true, 2⟩),
  (0xF8934B7B, .mmaE4f6 ⟨true, 30, 9, 6, true, false, true, 2⟩), (0xF8935B7B, .mmaE4f4 ⟨true, 30, 9, 6, true, false, true, 2⟩),
  (0xF8936B7B, .mmaF4f4 ⟨true, 30, 9, 6, true, false, true, 2⟩), (0x80937B7B, .mmaBf ⟨true, 0, 9, 6, true, false, true, 2⟩),
  (0x82930B7B, .mmaI8 ⟨true, 0, 9, 6, true, false, true, 2⟩), (0xFA931B7B, .mconv ⟨true, 30, 9, 6, true, false, true, 2⟩)] : List (Nat × Instr)), decode p.1 = .ok p.2 := by decide

/-- Words written out from the encodings of the opcode table: every operand field has a value of its own. -/
theorem test_decode_accumulators_and_copies : ∀ p ∈ ([
  (0x8200217B, .maccZero ⟨true, 2, 0, 0⟩), (0x8213217B, .maccSt ⟨true, 2, 6, 1⟩), (0x8223217B, .maccStp ⟨true, 2, 6, 2⟩),
  (0x8233217B, .maccLdp ⟨true, 2, 6, 3⟩), (0x824322FB, .maccRow ⟨true, 5, 6, 4⟩), (0x8203307B, .cqpush ⟨true, 0, 6, 0⟩),
  (0x820342FB, .cqtry ⟨true, 5, 6, 0⟩), (0x820042FB, .cqtryProbe ⟨true, 5, 0, 0⟩), (0x820052FB, .cqctlFree ⟨true, 5, 0, 0⟩),
  (0x8210507B, .cqctlWait ⟨true, 0, 0, 1⟩), (0x820062FB, .mprog ⟨true, 5, 0, 0⟩)] : List (Nat × Instr)), decode p.1 = .ok p.2 := by decide

/-- The words whose fields differ from the formats' (02 R37 to R39, 04 R80, R84). -/
theorem test_decode_odd_formats : ∀ p ∈ ([
  (0x9A50402B, .fencex true 3 4 5), (0xFFF3502B, .lpset true 2047 6), (0x3D50602B, .rep false 31 5 1),
  (0x8022502B, .lpset true 2 4), (0xBFC0602B, .rep true 32 7 0),
  (0x0F40602B, .rep false 8 5 0),
  (0x270362DB, .vcvt 16 ⟨false, 2, 1, 6, 5⟩), (0x47C362DB, .vcvtsr 28 ⟨false, 4, 1, 6, 5⟩)] : List (Nat × Instr)), decode p.1 = .ok p.2 := by
  decide

/-- The words of the base subset, from the formats of RV64 (02 R40). -/
theorem test_decode_base : ∀ p ∈ ([
  (0x00A00093, .integerOp .addi 1 0 0 10), (0x002081B3, .integerOp .add 3 1 2 0), (0x123451B7, .integerOp .lui 3 0 0 0x12345),
  (0x43F0D193, .integerOp .srai 3 1 0 63), (0x6B80D193, .integerOp .rev8 3 1 0 0), (0x022081BB, .integerOp .mulw 3 1 2 0),
  (0x00832283, .load .lw 5 6 8), (0xFFF33283, .load .ld 5 6 (-1)), (0x00532423, .store .sw 6 5 8), (0xFE533FA3, .store .sd 6 5 (-1)),
  (0x00832287, .load .flw 5 6 8), (0x00532427, .store .fsw 6 5 8),
  (0x0663A2AF, .amo .add false true true 5 7 6), (0xE063B2AF, .amo .maxu true false false 5 7 6), (0x1003B2AF, .lr true false false 5 7),
  (0x1863B2AF, .sc true false false 5 7 6), (0x0FF0000F, .fence 0 15 15 0 0), (0x8330000F, .fenceTso 0 0), (0x0000100F, .fenceI 0 0 0)] : List (Nat × Instr)),
  decode p.1 = .ok p.2 := by decide
/-- System, CSR, transfer and floating-point words of the base subset. -/
theorem test_decode_base_system : ∀ p ∈ ([
  (0x00000073, .ecall), (0x00100073, .ebreak), (0x10500073, .wfi),
  (0x001022F3, .csrAccess ⟨.rs, false, 1, 5, 0⟩), (0x0032D073, .csrAccess ⟨.rw, true, 3, 0, 5⟩),
  (0xCC6022F3, .errwordRead ⟨.rs, false, 0xCC6, 5, 0⟩), (0x80B09073, .fxflagsAccess ⟨.rw, false, 0x80B, 0, 1⟩),
  (0x80C09073, .qwdomainWrite ⟨.rw, false, 0x80C, 0, 1⟩), (0x81009073, .qbindCsrWrite ⟨.rw, false, 0x810, 0, 1⟩),
  (0x008000EF, .controlTransfer .jal 1 0 0 8), (0xFE208EE3, .controlTransfer .beq 0 1 2 (-4)), (0x004280E7, .controlTransfer .jalr 1 5 0 4),
  (0x002081D3, .fpOp .fadd 0 3 1 2 0), (0x2020F1C3, .fpOp .fmadd 7 3 1 2 4), (0xC02091D3, .fpOp .fcvtls 1 3 1 0 0)] : List (Nat × Instr)),
  decode p.1 = .ok p.2 := by decide

/-- 02 R30, R32, R37: words that no instruction has. -/
theorem test_decode_rejects : decode 0x00000001 = .reject .compressed ∧ decode 0x0000500F = .reject .unallocated ∧
    decode 0x009D260B = .reject .fieldLimit ∧ decode 0x00001057 = .reject .majorOpcode ∧ decode 0x02003053 = .reject .unallocated ∧
    decode 0xFFFFFFFF = .reject .majorOpcode ∧ decodeTableWord 32 0x00000000 = none := by decide

/-! Small states -/

/-- A state with one tile, of which thread `h` has the registers and the run given; the step is that thread's. -/
def at_ (h : Nat) (r : Regs) (run : Run) (t : Tile) : State := { tiles := [(0, { t with thr := [(h, ⟨r, run⟩)] })], focus := ⟨0, h, 0⟩ }
def going : Run := { ts := .running }
/-- Thread `h` of tile 0 runs; all else stands as after reset. -/
def base (h : Nat) : State := at_ h {} going {}
/-- t0 of tile 0 runs with registers given. -/
def regs (l : List (Nat × Nat)) : Regs := l.foldl (fun r x => r.setX x.1 (BitVec.ofNat 64 x.2)) {}
/-- Byte 0 of the scratchpad of tile 0 of wafer 0, in generation 1 (01 R18, 12 R264). -/
def own : Nat := 0x0404000000000000
/-- Both wide units of tile 0 are awake. -/
def awake : Tile := { c := { vecWarm := true, matWarm := true } }

theorem canTrap_iff (s : State) : s.canTrap ↔ s.focus.thread ≤ 1 ∧ s.me.run.ts = .running ∧
    s.midway s.focus.tile s.focus.thread = false :=
  ⟨fun h => ⟨h.1, h.2, h.3⟩, fun h => ⟨h.1, h.2.1, h.2.2⟩⟩
theorem ownBytes_iff (s : State) (a n : Nat) : s.ownBytes a n ↔ pathOf a = 1 ∧ addrName a = s.nameOf s.focus.tile ∧
    nameTile (s.nameOf s.focus.tile) = s.focus.tile ∧ addrWin a = 0 ∧ addrOff a + n ≤ 131072 ∧ a % n = 0 :=
  ⟨fun h => ⟨h.1, h.2, h.3, h.4, h.5, h.6⟩, fun h => ⟨h.1, h.2.1, h.2.2.1, h.2.2.2.1, h.2.2.2.2.1, h.2.2.2.2.2⟩⟩
theorem ownFree_iff (s : State) (off n : Nat) (write : Bool) : s.ownFree off n write ↔ s.me.held = false ∧
    s.openFences s.focus.tile s.focus.thread = [] ∧ ownReady s s.focus.tile off n = true ∧ ∀ e ∈ s.myTile.e.mq, s.focus.thread = 0 →
      (∀ x ∈ e.writes, ¬(x.1 < off + n ∧ off < x.1 + x.2)) ∧ (write = true → ∀ x ∈ e.reads, ¬(x.1 < off + n ∧ off < x.1 + x.2)) :=
  ⟨fun h => ⟨h.1, h.2, h.3, h.4⟩, fun h => ⟨h.1, h.2.1, h.2.2.1, h.2.2.2⟩⟩

/-! The hypotheses of the statements, met -/

theorem witness_IntegersAndTransfers : (base 0).settled false ∧ (base 2).settled false ∧ (base 1).canTrap ∧
    (ctlTarget .jal 0 0 (BitVec.ofNat 64 own) 4).1 = true ∧ (ctlTarget .jal 0 0 (BitVec.ofNat 64 own) 4).2.toNat / 131072 =
      (base 0).prefixOf 0 / 131072 ∧ (ctlTarget .jal 0 0 (BitVec.ofNat 64 own) 4).2.toNat % 4 = 0 ∧ (ctlTarget .bne 0 0 0 8).1 = false ∧
    ¬((ctlTarget .jal 0 0 (BitVec.ofNat 64 own) 131072).2.toNat / 131072 = (base 0).prefixOf 0 / 131072) ∧
    (ctlTarget .beq 0 0 (BitVec.ofNat 64 own) 2).2.toNat % 4 ≠ 0 := by
  simp only [State.settled, canTrap_iff]; decide
theorem witness_FpOpWritesResultAndFlags : (base 0).settled false ∧ (base 1).canTrap ∧ roundingMode 7 (base 0).me.r.frm = some .rne ∧
    roundingMode 7 (at_ 0 { frm := 5 } going {}).me.r.frm = none ∧ usesRm .fadd = true ∧
    (∃ c fl, fpResult .fadd .rne 0 0 0 0 = .f c fl) ∧ ∃ v fl, fpResult .feq .rne 0 0 0 0 = .x v fl := by
  simp only [State.settled, canTrap_iff]; exact ⟨by decide, by decide, by decide, by decide, by decide, ⟨_, _, rfl⟩, ⟨_, _, rfl⟩⟩
/-- The last doubleword of the scratchpad, and one whose granule is poisoned. -/
theorem witness_LoadsAndStoresOfOwnScratchpad : (at_ 0 (regs [(5, own)]) going {}).ownBytes (own + 131064) 8 ∧
    (base 0).ownFree 131064 8 true ∧ poisonedAt (base 0) 0 131064 8 = false ∧ (base 0).settled false ∧
    ((regs [(5, own + 131072)]).getX 5 + immW (-8)).toNat = own + 131064 ∧ addrOff (own + 131064) = 131064 ∧
    poisonedAt (at_ 1 {} going { c := { poison := [(16383, true)] } }) 0 131064 8 = true ∧
    (at_ 1 {} going { c := { poison := [(16383, true)] } }).canTrap := by
  simp only [ownBytes_iff, ownFree_iff, State.settled, canTrap_iff]; decide
/-- Bytes of the scratchpad of tile 1, and a translated address without an entry. -/
theorem witness_accesses_elsewhere :
    let s := base 0
    let x := { base 0 with regions := [(0, { xlatMode := 10 })] }
    let far := own + 1073741824
    s.focus.thread ≤ 1 ∧ s.me.held = false ∧ s.switched = true ∧ s.allDone = true ∧ s.canTrap ∧ s.undisturbed ∧ s.settled true ∧
    s.roomToIssue 0 0 = true ∧ lrAllowed far = true ∧ lrAllowed (own + 1048576) = false ∧
    (∀ k ∈ [WinKind.load, .store, .atomic, .probe], target s far 8 k = .place ⟨1, 0, 67108928⟩ ∧
      mqConflict s ⟨1, 0, 67108928⟩ 8 k.isWrite = false ∧ ownNow s 0 0 8 ⟨1, 0, 67108928⟩ (classOf far ⟨1, 0, 67108928⟩ k.cls) = false ∧
      target s 0 8 k = .trap 0x18 1 ∧ target x 4096 8 k = .walk k.acc) ∧
    x.undisturbed ∧ pathOf far = 1 ∧ addrWin far = 0 ∧ addrOff (far + 131068) + 4 ≤ 131072 ∧ (far + 131068) % 4 = 0 ∧
    s.me.run.answer = none ∧ s.me.reading = false := by
  simp only [State.settled, State.undisturbed, canTrap_iff]; decide
theorem witness_AtomicsOnOwnScratchpad : (at_ 0 (regs [(5, own)]) going {}).ownBytes own 8 ∧ (base 0).ownFree 0 8 true ∧
    (base 0).settled false ∧ poisonedAt (base 0) 0 0 8 = false ∧ (base 0).switched = true ∧ (base 0).allDone = true ∧ (base 0).undisturbed ∧
    ((regs [(5, own)]).getX 5).toNat = own ∧
    (let s : State := { at_ 0 {} { ts := .running, lrAddr := some own } {} with homes := [(0, { resv := [⟨0, 0, 0⟩] })] }
     s.me.run.lrAddr = some own ∧ (⟨addrOff own / 8, 0, 0⟩ : Reservation) ∈ (s.home 0).resv) ∧
    (base 0).me.run.lrAddr ≠ some own := by
  simp only [ownBytes_iff, ownFree_iff, State.settled, State.undisturbed]; decide
theorem witness_BadScratchpadAccessTraps : (base 0).canTrap ∧ (base 0).me.held = false ∧ pathOf (own + 1) = 1 ∧ addrWin (own + 131072) = 0 ∧
    addrOff (own + 131068) + loadSize .lw ≤ 131072 ∧ (own + 131067) % loadSize .lw ≠ 0 ∧ 131072 < addrOff (own + 131069) + loadSize .lw ∧
    131072 < addrOff (own + 131072) + storeSize .sb ∧ (own + 4) % storeSize .sd ≠ 0 ∧ addrOff (own + 4) + storeSize .sd ≤ 131072 := by
  simp only [canTrap_iff]; decide

/-- A store by the scalar unit to home `h` that is not acknowledged. -/
def storeOut (h : Nat) : Out := { id := 0, parts := [⟨h, 1, 0⟩], dst := .nowhere, aq := false, pc := 0, word := 0, flats := [(0, 0)], issued := 0, posted := false }
/-- A store to the edge is outstanding: it holds a wafer-scope fence of W back, and a fence of R or of tile scope not. -/
theorem witness_FencesWaitForTheirPredecessors : (base 0).settled true ∧ fenceWaits (base 0) 15 5 = false ∧
    (base 0).switched = true ∧ (base 0).undisturbed ∧ (let s := at_ 0 {} { ts := .running, outs := [storeOut 67108864] } {}
      (∃ o ∈ s.me.run.outs, ∃ x ∈ o.parts, (x.cls &&& 1) ≠ 0 ∧ inScope s s.focus.tile 4 x.home = true) ∧ s.settled true ∧
      fenceWaits s 2 5 = false ∧ fenceWaits s 1 1 = false ∧ fenceWaits s 1 5 = true ∧ fenceSet 1 = 1) := by
  simp only [State.settled, State.undisturbed]; decide

def booted (s : State) : State := { s with wafers := [(0, { life := .debugOpen, booted := true })] }
def reply : Msg := ⟨0, 0, 0, 134217728, 15, 9, false, 0, 1, 0, 0, 0, 0, 4096, .callReply 7 0, none, 0, 0, none⟩
/-- A thread asleep at an `ecall` in its scratchpad, the reply in its tile's inbox. -/
def calling : State := { at_ 0 {} { ts := .sleeping, phase := 1, wait := some ⟨6, 0, 0, 0⟩ } {} with
  mem := [(0, 0x73)], homes := [(0, { inbox := [reply] })] }
/-- The state in which the reply leaves it. -/
def replied : State := (calling.modHome 0 (fun q => { q with inbox := [] })).modMe (fun t => t.modRun (fun r =>
  { r with answer := some 0, phaseVal := 7 }))
def dbgOn (s : State) : State := { s with regions := [(0, { dbgEn := true, dbgAllowed := true })] }

theorem witness_SystemInstructions :
    (at_ 0 {} { ts := .running, gather := { role := .attached } } {}).isFollower = true ∧ (base 1).isFollower = false ∧
    (base 1).settled false ∧ (at_ 1 {} { ts := .running, answer := some 3 } {}).me.run.answer = some 3 ∧ (base 0).me.run.answer = none ∧
    (base 0).me.run.phase ≠ 1 ∧ (base 0).switched = true ∧ fenceWaits (base 0) 15 5 = false ∧ (base 0).inSystem 0 0 = true ∧
    (base 0).undisturbed ∧ (base 0).me.run.wait = none ∧ (base 0).canTrap ∧ ((base 0).region ((base 0).regionOf 0)).dbgEn = false ∧
    ((dbgOn (base 0)).region ((dbgOn (base 0)).regionOf 0)).dbgEn = true ∧ (dbgOn (base 0)).me.run.dbg.halted = false ∧ (dbgOn (base 0)).me.run.clear ∧ (dbgOn (base 0)).midway 0 0 = false ∧
    (at_ 0 {} { ts := .sleeping, wait := some ⟨5, 0, 0, 0⟩ } {}).me.run.wait = some ⟨5, 0, 0, 0⟩ := by
  simp only [State.settled, State.undisturbed, canTrap_iff]; decide
theorem witness_SystemInstructions_reply : calling.replyKept 1 = none ∧ callAnswer calling 1 = some (reply, []) ∧
    reply.body = .callReply 7 0 ∧ calling.me.callOpen 1 reply.seq = true ∧ calling.me.run.ts = .sleeping ∧
    (base 0).me.callOpen 1 reply.seq = false ∧ (let q := at_ 0 {} { ts := .stopped, phase := 1, wait := some ⟨6, 0, 0, 0⟩ } {}
      q.me.callOpen 1 reply.seq = true ∧ q.me.run.ts ≠ .sleeping) ∧ replied.replyKept 1 = some (0, 7) ∧
    ∃ s', replied.standsAt s' .ecall ∧ s'.isFollower = false ∧ s'.me.run.answer = some 0 ∧ s'.me.run.phaseVal = 7 ∧ s'.settled false :=
  ⟨by decide, by decide, rfl, by decide, rfl, by decide, by decide, by decide, _, rfl, rfl, rfl, rfl, Or.inl rfl, rfl, rfl⟩

/-- Bindings of VC 11 and VC 12. -/
theorem witness_CsrAccesses : (base 0).settled false ∧ (base 0).canTrap ∧ csrRead (base 0) 0 0 0x001 = some 0 ∧
    csrWritable 0 0x001 = true ∧ csrRead (base 0) 0 0 0x820 = some 0 ∧ csrWritable 0 0x820 = true ∧
    csrRead (base 0) 0 0 0xC02 = some 0 ∧ csrWritable 0 0xC02 = false ∧ csrRead (base 0) 0 0 0x300 = none ∧
    csrRead (base 1) 0 1 0x80B = none ∧ CsrArgs.writes ⟨.rs, false, 1, 5, 0⟩ = false ∧ CsrArgs.writes ⟨.rw, false, 1, 5, 0⟩ = true ∧
    CsrArgs.writes ⟨.rc, true, 1, 5, 1⟩ = true ∧ (base 0).myTile.e.mq = [] ∧ (base 0).returnRoom 0 0 = true ∧
    (let v := csrValue ⟨.rw, false, 0x817, 0, 5⟩ (at_ 0 (regs [(5, 0x8000002C00000001)]) going {}) 0
     v / 9223372036854775808 % 2 = 1 ∧ v / 17179869184 % 16 = 11) ∧
    (let v := csrValue ⟨.rw, false, 0x810, 0, 5⟩ (at_ 0 (regs [(5, 0x8000003000000000)]) going {}) 0
     v / 9223372036854775808 % 2 = 1 ∧ v / 17179869184 % 16 = 12) := by
  simp only [State.settled, canTrap_iff]; decide
theorem witness_RandomTimeAndSections : (base 0).settled true ∧ (base 1).canTrap ∧ (base 0).me.readsDone = true ∧
    (at_ 0 (regs [(5, 6)]) { ts := .running, phase := 1 } {}).getXn 5 = 6 ∧ (at_ 0 (regs [(5, 20)]) going {}).getXn 5 = 20 ∧
    (at_ 0 (regs [(5, 21)]) going {}).getXn 5 = 21 ∧ (base 0).getXn 5 < 6 ∧ (base 0).me.run.phase ≠ 1 ∧ (base 0).undisturbed ∧
    (at_ 0 (regs [(5, 6)]) { ts := .running, phase := 1, phaseVal := 64 } {}).now < 64 ∧ (base 0).me.run.clear ∧
    (at_ 0 {} { ts := .running, outs := [⟨0, [], .f 5, false, 0, 0, [], 0, false, false, none, 0⟩] } {}).me.readsDone = false ∧
    (at_ 0 {} going { e := { unsent := [⟨⟨0, 0, 0, 0, 0, 0, false, 0, 0, 0, 0, 0, 0, 0, .allocate, none, 0, 0, none⟩, 0, false, 0⟩] } }).notInjected 0 0 = true ∧ (base 0).ownErrors 0 0 = false ∧ (base 0).copiesUnsent 0 0 = false ∧ (base 0).notInjected 0 0 = false ∧
    (at_ 0 {} { ts := .running, npd := 14 } {}).me.run.npd < 15 ∧ ((base 0).region ((base 0).regionOf 0)).npLimit ≠ 0 ∧
    (at_ 0 {} { ts := .running, npd := 15 } {}).me.run.npd = 15 ∧
    (let s : State := { at_ 0 (regs [(9, 6)]) { ts := .running, phase := 1, phaseVal := 64 } {} with mem := [(0, 0x0B), (1, 0xC0), (2, 4), (3, 2)], now := 64 }
     ∃ s', issue s = .go s' (.slotwait ⟨false, 0, 9, 0⟩) ∧ s.me.run.phaseVal ≤ s.now) := by
  simp only [State.settled, State.undisturbed, canTrap_iff]
  refine ⟨?_, ?_, ?_, ?_, ?_, ?_, ?_, ?_, ?_, ?_, ?_, ?_, ?_, ?_, ?_, ?_, ?_, ?_, ?_, _, rfl, ?_⟩ <;> decide
theorem witness_WhatFollowsInSequence : let l (n last : Nat) : Regs := { pc := 8, loop := { lpa := true, start := 4, last := last, count := BitVec.ofNat 64 n } }
    (l 2 8).loop.lpa = true ∧ pcOff (l 2 8).pc = (l 2 8).loop.last ∧ 1 < (l 2 8).loop.count.toNat ∧ (l 1 8).loop.count.toNat ≤ 1 ∧
    ¬(pcOff (l 2 12).pc = (l 2 12).loop.last) ∧ pcOff (l 2 12).pc + 4 = (l 2 12).loop.last ∧
    ({} : Regs).loop.repdone + 1 < (⟨0, 0, 2, false⟩ : RepRun).count ∧ (⟨0, 0, 1, false⟩ : RepRun).count ≤ ({} : Regs).loop.repdone + 1 := by decide
/-- A body that ends with the last word of the scratchpad, and one a word longer; a `rep` of two before an `add`, fresh and done. -/
theorem witness_LoopsAndRepeatsSetUp : let s := at_ 1 { regs [(5, 3)] with pc := BitVec.ofNat 64 (own + 0x1FFF8) } going {}
    pcOff s.me.r.pc + 4 * 1 ≤ 0x1FFFC ∧ 0x1FFFC < pcOff s.me.r.pc + 4 * 2 ∧ s.me.r.loop.lpa = false ∧ s.getX 5 ≠ 0 ∧ s.getX 6 = 0 ∧
    s.settled true ∧ s.canTrap ∧ (at_ 1 { loop := { lpa := true } } going {}).me.r.loop.lpa = true ∧
    (let r : State := { base 0 with mem := [(4, 0xB3), (5, 0x81), (6, 0x20)] }
     r.wordAfter = some (some 0x002081B3) ∧ poisonedAt r 0 4 4 = false ∧ r.me.run.gather.role ≠ .leader ∧ r.me.r.loop.lpa = false ∧ r.switched = true ∧
     repCheck 0 0x002081B3 2 4 0 = none ∧ repCheck 0 0x00000063 2 1 0 ≠ none ∧ r.canTrap ∧
     (at_ 0 { loop := { repa := true, repdone := 2 } } going {}).me.r.loop.repdone = 2) := by
  simp only [State.settled, canTrap_iff]; decide
/-- A message to the home `h` with the name `dst`. -/
def msg (dst h vc kind : Nat) (body : Payload) : Msg := ⟨dst, 67108864, h, 0, vc, kind, false, 0, 1, 0, 0, 0, 0, 0, body, none, 0, 0, none⟩
theorem passes_iff (s : State) (h dst dstHome : Nat) :
    s.passes h dst dstHome ↔ s.firstCheck (homeRouter h) (msg dst dstHome 0 0 (.stream [])) = true ∧
      ¬(isTileHome dstHome = true ∧ nameGen dst = 0 ∧ isEdgeHome (homeOfName dst) = true) ∧
      (dstHome = h → isTileHome h = true ∧ s.staleName (waferOf h) dst = false ∧ (s.tile h).rt.closed = false) := by
  constructor
  · intro p; exact ⟨p.1 _ rfl rfl, p.2⟩
  · intro c; refine ⟨?_, c.2⟩; intro m h1 h2; have c := c.1; unfold State.firstCheck at *; rw [h1, h2]; exact c
def withTile (t : Tile) : State := at_ 0 {} going t
def inboxOf (h : Nat) (l : List Msg) (s : State) : State := { s with homes := [(h, { inbox := l })] }

/-- Sources in an x register, at port 1 and in a stream register bound to VC 11; empty ones; an unbound one; port 0 of the corner
tile, behind which there is none. -/
theorem witness_PortForms :
    let s := at_ 0 { qbind := [(7, ⟨true, 11, 0⟩)] } going { e := { fifo := [(1, [(5, 0)])], store := [⟨6, 11, 67108928, 0⟩] } }
    classAllows 0 (.mmov ⟨false, true, false, false, 1, 0, 0⟩) = true ∧ unbound s true 15 = false ∧ unbound s true 8 = true ∧
    badPort s true 1 = false ∧ badPort s true 0 = true ∧ (∃ e, portSrc s s.myTile.e true 1 = .value 5 e 0 ∧ portSrc s e true 15 = .value 6 { e with store := [] } 0) ∧
    s.settled false ∧ s.canInject 0 0 1 = true ∧ s.portHeld ⟨false, true, true, true, 1, 1, 15⟩ = false ∧ neighbour 0 1 = some 1 ∧ isTileHome 0 = true ∧ s.passes 0 (s.nameOf 0) 1 ∧
    s.undisturbed ∧ s.me.run.wait = none ∧ s.canTrap ∧ portSrc s s.myTile.e true 2 = .emptyPort 2 ∧
    portWait [portSrc s s.myTile.e true 2, portSrc s s.myTile.e true 1] = some (1, 2) := by
  simp only [State.settled, State.undisturbed, canTrap_iff, passes_iff]
  exact ⟨by decide, by decide, by decide, by decide, by decide, ⟨_, rfl, rfl⟩, by decide⟩
/-- The local input has room for a last word of two flits, and for none. -/
theorem witness_PortForms_full : (withTile { rt := { bufs := [(bufKey 4 0 false, [{ msg 67108928 1 0 1 (.stream []) with len := 5 }])] } }).canInject 0 0 1 = true ∧
    (withTile { rt := { bufs := [(bufKey 4 0 false, [{ msg 67108928 1 0 1 (.stream []) with len := 6 }])] } }).canInject 0 0 1 = false := by decide

theorem witness_SendsAndBindings : (base 0).focus.thread = 0 ∧ (base 0).canInject 0 11 4 = true ∧ (base 0).heldOrder 0 0 clsW 1 = false ∧
    (base 0).heldOrder 0 0 clsR 0 = false ∧ (base 0).settled true ∧
    (base 0).passes 0 67108928 1 ∧ homeOfName 67108928 = 1 ∧
    (withTile { rt := { bufs := [(bufKey 4 11 false, [{ msg 67108928 1 11 1 (.stream []) with len := 6 }])] } }).canInject 0 11 1 = false ∧
    (base 0).undisturbed ∧ (base 0).me.run.wait = none ∧ (at_ 0 (regs [(9, 11)]) going {}).getXn 9 % 16 < 12 ∧
    12 ≤ (at_ 0 (regs [(9, 12)]) going {}).getXn 9 % 16 ∧ (base 0).canTrap ∧
    ((at_ 0 { qbind := [(0, ⟨true, 2, 0⟩)] } going {}).me.r.qbind.look 0 {}).v = true ∧ (base 0).me.run.livePend.length < 8 ∧
    (base 0).me.run.clear ∧ (base 0).me.run.rep = none ∧ isTileHome 0 = true ∧ ((base 0).me.r.qbind.look 0 {}).v = false ∧
    (base 1).heldOrder 0 1 clsW 1 = false ∧ (base 1).settled true ∧ (base 1).canInject 0 11 1 = true := by
  simp only [State.settled, State.undisturbed, canTrap_iff, passes_iff]; decide

/-- From the north-west corner to itself, to its neighbour, and to the far corner. -/
theorem witness_RoutesMakeProgress : homeWafer 0 = waferOf 0 ∧ homeCoord 589823 = (767, 767) ∧ homeWafer 589823 = waferOf 0 ∧
    (homeCoord 0).1 = yOf 0 ∧ (homeCoord 0).2 = xOf 0 ∧ (homeCoord 1).2 = 1 ∧
    ∀ n, n < 16 → ovrMatches (((base 0).ovrOf 0).look n 0) 0 767 767 = false := by
  refine ⟨by decide, by decide, by decide, by decide, by decide, by decide, ?_⟩
  have h : ∀ n : Fin 16, ovrMatches (((base 0).ovrOf 0).look n.val 0) 0 767 767 = false := by decide
  exact fun n hn => h ⟨n, hn⟩

/-- A message stands at the west input: for the tile itself, for its neighbour in the same cluster, of a kind that is wrong for its VC. A
stream store that is full takes none; a neighbour's input takes a message that fills it; a record for a tile of another cluster is refused
at its edge. -/
def routed (m : Msg) (out : Nat) (bufs : Tab (List Msg)) (h : Tab HomeSt) : State :=
  { withTile { rt := { bufs := [(bufKey 3 m.vc false, [{ m with route := some (out, false, false) }])] } } with
    tiles := [(0, { rt := { bufs := [(bufKey 3 m.vc false, [{ m with route := some (out, false, false) }])] } }), (1, { rt := { bufs := bufs } })], homes := h }
theorem witness_RoutersMoveMessages :
    let here := msg 67108864 0 2 1 (.stream [1])
    let there := msg 67108928 1 2 1 (.stream [1])
    let s := routed here 4 [] []
    let u := routed there 1 [] []
    s.myTile.rt.bufs.look (bufKey 3 2 false) [] = [{ here with route := some (4, false, false) }] ∧ s.myTile.rt.stoppedRouter = false ∧
    kindVcOk 1 2 = true ∧ kindVcOk 1 11 = true ∧ kindVcOk 1 12 = false ∧ s.ejectFull here 3 false = false ∧
    (s.tile 0).c.proofing = false ∧ sideOf here.dstHome = none ∧ s.served 0 4 2 = true ∧ s.ejectRefusal here = none ∧ s.myTile.e.unsent = [] ∧
    (routed here 4 [] [(0, { inbox := List.replicate 256 here })]).ejectFull here 3 false = true ∧
    (routed here 4 [] [(0, { inbox := List.replicate 255 here })]).ejectFull here 3 false = false ∧
    homeWafer there.dstHome = waferOf 0 ∧ u.noLink 0 1 = false ∧ u.linkIsDown 0 1 = false ∧ neighbour 0 1 = some 1 ∧
    (u.tile 1).rt.stoppedRouter = false ∧ u.ingressRefusal 0 1 there = none ∧ u.served 0 1 2 = true ∧
    (let b (n : Nat) := ((routed there 1 [(bufKey 3 2 false, [{ there with len := n }])] []).tile 1).rt.bufs.look (bufKey (opposite 1) 2 false) []
     fitsBuf 8 (b 5) there.len = true ∧ fitsBuf 8 (b 6) there.len = false ∧ fitsBuf 4 (b 1) there.len = true ∧ fitsBuf 4 (b 2) there.len = false) ∧
    (let r : State := { u with tiles := [(15, {}), (16, {})] }
     r.ingressRefusal 15 16 { msg (67108864 + 16 * 64) 16 12 2 (.task 0 0 0 0) with route := some (1, false, false) } = some 4 ∧
     neighbour 15 1 = some 16 ∧ isTileHome 16 = true) ∧ isTileHome 0 = true ∧ (∀ h ∈ homesAt 0 3, (s.home h).outbox = []) := by decide
/-- The last OP that exists and the first that does not, and a message for a closed tile. -/
theorem witness_RoutersMoveMessages_ops :
    let m (n : Nat) : Msg := { msg 67108864 0 15 9 (.callReply 0 0) with aux := 4096 * n }
    let s (n : Nat) := routed (m n) 4 [] []
    kindVcOk 9 15 = true ∧ (s 4).ejectFull (m 4) 3 false = false ∧ (s 4).served 0 4 15 = true ∧ (s 4).ejectRefusal (m 4) = none ∧
    (m 4).aux / 4096 < 5 ∧ (s 5).ejectFull (m 5) 3 false = false ∧ (s 5).ejectRefusal (m 5) = none ∧ 5 ≤ (m 5).aux / 4096 ∧
    (let w := msg 67108864 0 0 0 (.portWord 5 1)
     let c : State := { routed w 4 [] [] with tiles := [(0, { rt := { closed := true, bufs := [(bufKey 3 0 false, [{ w with route := some (4, false, false) }])] } })] }
     (c.tile 0).rt.closed = true ∧ c.served 0 4 0 = true ∧ c.myTile.rt.bufs.look (bufKey 3 0 false) [] = [{ w with route := some (4, false, false) }]) := by
  decide

/-- A port word and a stream of eight words; a FIFO of 15 and one of 16 words; a store with exactly the room; a parked thread; a thread
asleep at `mmov x9, q0` whose word has come. -/
theorem witness_MeshArrivals :
    let w := msg 67108864 0 0 0 (.portWord 5 1)
    let q := msg 67108864 0 2 1 (.stream [1, 2, 3, 4, 5, 6, 7, 8])
    let word : StreamWord := ⟨0, 2, 67108864, 0⟩
    ((inboxOf 0 [w] (base 0)).home 0).inbox = [w] ∧
    ((withTile { e := { fifo := [(1, List.replicate 15 (0, 0))] } }).myTile.e.fifo.look 1 []).length < 16 ∧
    16 ≤ ((withTile { e := { fifo := [(1, List.replicate 16 (0, 0))] } }).myTile.e.fifo.look 1 []).length ∧
    ((inboxOf 0 [q] (base 0)).home 0).inbox = [q] ∧
    (withTile { e := { store := List.replicate 248 word } }).myTile.e.store.length + 8 ≤ 256 ∧ (base 0).me.run.pend = [] ∧
    (at_ 0 {} { ts := .running, pend := [⟨true, 1, 0, 0, .words ⟨true, 2, 67108864⟩, false⟩] } {}).me.run.pend =
      [⟨true, 1, 0, 0, .words ⟨true, 2, 67108864⟩, false⟩] ∧
    (at_ 0 {} { ts := .parked, pend := [⟨true, 1, 9, 8, .done, false⟩] } {}).me.run.ts = .parked ∧
    (⟨true, 1, 9, 8, .done, false⟩ : Pend).isDone = true ∧
    (let s : State := { at_ 0 { qbind := [(0, ⟨true, 2, 0⟩)] } { ts := .sleeping, wait := some ⟨0, 0, 0, 0⟩ } { e := { store := [word] } } with
       mem := [(0, 0x8B), (1, 0x14), (2, 4), (3, 0x28)] }
     s.me.run.wait = some ⟨0, 0, 0, 0⟩ ∧ ∃ s', s.standsAt s' (.mmov ⟨false, false, true, false, 9, 8, 0⟩) ∧
       (meshBody (.mmov ⟨false, false, true, false, 9, 8, 0⟩)).isSome ∧
       classAllows s'.focus.thread (.mmov ⟨false, false, true, false, 9, 8, 0⟩) = true ∧ unbound s' true 8 = false ∧ unbound s' false 0 = false ∧
       badPort s' true 8 = false ∧ badPort s' false 0 = false ∧ s'.portHeld ⟨false, false, true, false, 9, 8, 0⟩ = false ∧
       (∃ e n e' n', portSrc s' s'.myTile.e true 8 = .value 0 e n ∧ portSrc s' e false 0 = .value 0 e' n') ∧ s'.settled false) := by
  refine ⟨?_, ?_, ?_, ?_, ?_, ?_, ?_, ?_, ?_, ?_, _, rfl, rfl, rfl, rfl, rfl, rfl, rfl, rfl, ⟨_, _, _, _, rfl, rfl⟩, Or.inl rfl, rfl, rfl⟩ <;> decide
/-- A thread asleep at `send` on VC 2 whose router has room again. -/
theorem witness_MeshArrivals_send :
    let s : State := { at_ 0 {} { ts := .sleeping, wait := some ⟨1, 0, 18, 0⟩ } {} with mem := [(0, 0x0B), (1, 0x21), (2, 0x9D)] }
    s.me.run.wait = some ⟨1, 0, 18, 0⟩ ∧ ∃ s', s.standsAt s' (.send ⟨false, 2, 26, 9⟩) ∧
      s'.heldOrder s'.focus.tile s'.focus.thread clsW (homeOfName (s'.getXn 26 % 2 ^ 34)) = false ∧
      s'.canInject s'.focus.tile 2 1 = true ∧ s'.settled false :=
  ⟨rfl, _, rfl, rfl, rfl, Or.inl rfl, rfl, rfl⟩

theorem witness_LinksFailAndReport : neighbour 0 1 = some 1 ∧ (base 0).myTile.rt.retries.look 1 0 < 4294967295 ∧
    neighbour 12 0 = none ∧ hasLink 12 0 = true ∧
    8 < ({ tiles := [(12, { rt := { replays := [(0, 9)] } })], focus := ⟨12, 0, 0⟩ } : State).myTile.rt.replays.look 0 0 ∧
    8 < (withTile { rt := { replays := [(1, 9)] } }).myTile.rt.replays.look 1 0 ∧
    (withTile { rt := { replays := [(1, 8)] } }).myTile.rt.replays.look 1 0 ≤ 8 := by decide
/-- A warm tile and a cold one; the last wake that the step admits, and one more; a unit unused for 1,024 cycles; a stalled `vadd`. -/
theorem witness_UnitsWakeInSteps : (withTile awake).warm 0 false = true ∧ (withTile awake).warm 0 true = true ∧ (base 0).settled true ∧
    (let k (n w : Nat) : State := { at_ 0 (regs [(5, 33)]) going {} with clusters := [(0, { stepN := n, wakes := w })] }
     (k 2 0).stepWakes 0 + 2 ≤ ((k 2 0).cluster 0).stepN ∧ ((k 2 0).cluster 0).stallQ = [] ∧ 33 ≤ (k 2 0).getXn 5 ∧
     ((k 2 2).cluster 0).stepN ≤ (k 2 2).stepWakes 0 ∧ (k 2 2).warm 0 false = false ∧ ((k 2 2).cluster 0).stalls < 4294967295 ∧
     (k 2 2).stalls 0 0 = false) ∧ (withTile { c := { vecWarm := true } }).vecKept 0 = false ∧ (withTile awake).matBusy 0 = false ∧
    ({ withTile { c := { vecWarm := true, vecUsed := 0 } } with now := 1024 } : State).cyclesOf 0 = 1024 ∧
    (let s : State := { at_ 0 {} going { c := { matWarm := true, wakeHold := [(0, true, false)] } } with
       mem := [(0, 0xDB), (1, 0x81), (2, 0x21), (3, 0x50)], clusters := [(0, { stallQ := [threadIndex 0 0] })] }
     s.warm 0 false = false ∧ s.warm 0 true = true ∧ s.stalls 0 0 = true ∧ s.stepWakes 0 + s.wakesAhead 0 (threadIndex 0 0) < (s.cluster 0).stepN ∧
     ∃ s', issue s = .go s' (.vadd ⟨false, 5, 0, 2, 3, 3⟩) ∧ s'.focus = { s.focus with word := s'.focus.word } ∧ s'.tiles = s.tiles ∧
       s'.clusters = s.clusters ∧ s'.now = s.now ∧ unitsNeeded s' (.vadd ⟨false, 5, 0, 2, 3, 3⟩) = (true, false)) := by
  refine ⟨by decide, by decide, ⟨Or.inl rfl, rfl, rfl⟩, by decide, by decide, by decide, by decide, by decide, by decide, by decide, by decide, _, rfl,
    by decide⟩
/-! Homes and answers -/

def req (op : ReqOp) (addr size data : Nat) : MemReq :=
  { op := op, addr := addr, size := size, data := data, id := 3, lane := 0, local_ := true, stream := false, awaited := true }
/-- A home whose inbox holds one request from tile 0. -/
def asked (home : Nat) (kind : Nat) (b : Payload) (q : HomeSt) : State :=
  { base 0 with homes := [(home, { q with inbox := [msg 67108864 home 13 kind b] })] }

theorem witness_HomesServeMemory :
    let m (q : MemReq) := msg 67108864 1 13 3 (.mem q)
    let ld := req (.load true) 131064 8 0
    let s (q : MemReq) := asked 1 3 (.mem q) {}
    (s ld).nextAt 1 (m ld) ld [] ∧ isTileHome 1 = true ∧ ld.addr + ld.size ≤ 131072 ∧ 0 < ld.size ∧ poisonedAt (s ld) 1 131064 8 = false ∧
    (s (req .fetch 0 8 0)).nextAt 1 (m (req .fetch 0 8 0)) (req .fetch 0 8 0) [] ∧
    (s (req .store 0 1 255)).nextAt 1 (m (req .store 0 1 255)) (req .store 0 1 255) [] ∧
    (s (req (.amo .maxu) 0 4 7)).nextAt 1 (m (req (.amo .maxu) 0 4 7)) (req (.amo .maxu) 0 4 7) [] ∧
    (s (req .sc 8 8 7)).nextAt 1 (m (req .sc 8 8 7)) (req .sc 8 8 7) [] ∧
    (⟨1, 0, 0⟩ : Reservation) ∈ ((asked 1 3 (.mem (req .sc 8 8 7)) { resv := [⟨1, 0, 0⟩] }).home 1).resv ∧
    ((s (req .sc 8 8 7)).home 1).resv = [] ∧
    (s (req .barrive 0 8 1)).nextAt 1 (m (req .barrive 0 8 1)) (req .barrive 0 8 1) [] ∧
    (let e := msg 67108864 67108864 13 3 (.mem (req (.load false) 0 1 0))
     (asked 67108864 3 (.mem (req (.load false) 0 1 0)) {}).nextAt 67108864 e (req (.load false) 0 1 0) [] ∧ isEdgeHome 67108864 = true) ∧
    (let p : State := { s ld with tiles := [(1, { c := { poison := [(16383, true)] } })] }
     p.nextAt 1 (m ld) ld [] ∧ poisonedAt p 1 131064 8 = true ∧ ld.awaited = true) ∧ (s ld).passes 1 67108864 0 ∧
    (s (req .lr 0 8 0)).nextAt 1 (m (req .lr 0 8 0)) (req .lr 0 8 0) [] ∧
    (s (req (.watch true) 0 8 0)).nextAt 1 (m (req (.watch true) 0 8 0)) (req (.watch true) 0 8 0) [] ∧
    (let q := { req (.load false) 0 8 0 with stream := true }
     (asked 67108864 3 (.mem q) {}).nextAt 67108864 (msg 67108864 67108864 13 3 (.mem q)) q []) ∧
    (let q := { req (.amo .add) 131064 8 1 with awaited := false }
     let p : State := { s q with tiles := [(1, { c := { poison := [(16383, true)] } })] }
     p.nextAt 1 (m q) q [] ∧ poisonedAt p 1 131064 8 = true ∧ plainOp q.op = true) := by
  simp only [State.nextAt, passes_iff]
  refine ⟨?_, ?_, ?_, ?_, ?_, ?_, ?_, ?_, ?_, ?_, ?_, ?_, ?_, ?_, ?_, ?_, ?_, ?_, ?_⟩ <;> decide

/-- The last slots of windows 1 to 6, and a store to window 7. -/
theorem witness_WindowsReachRegisters :
    let m (q : MemReq) := msg 67108864 1 13 3 (.mem q)
    let at_ (w off : Nat) (op : ReqOp) := req op (w * 1048576 + off) 8 5
    (∀ w ∈ [1, 2, 3, 4, 5, 6], ∀ op ∈ [ReqOp.load false, .store],
      (asked 1 3 (.mem (at_ w 56 op)) {}).nextAt 1 (m (at_ w 56 op)) (at_ w 56 op) [] ∧ (at_ w 56 op).addr / 1048576 = w) ∧
    (asked 1 3 (.mem (at_ 1 248 .store)) {}).nextAt 1 (m (at_ 1 248 .store)) (at_ 1 248 .store) [] ∧
    (asked 1 3 (.mem (at_ 4 2040 .store)) {}).nextAt 1 (m (at_ 4 2040 .store)) (at_ 4 2040 .store) [] ∧
    (asked 1 3 (.mem (at_ 5 8184 .store)) {}).nextAt 1 (m (at_ 5 8184 .store)) (at_ 5 8184 .store) [] ∧
    (let x := at_ 7 0 .store
     ((asked 1 1 (.mem x) {}).home 1).inbox = [msg 67108864 1 13 1 (.mem x)] ∧
     ({ asked 1 1 (.mem x) {} with tiles := [(1, { e := { store := List.replicate 255 ⟨0, 0, 0, 0⟩ } })] } : State).thread 1 0 = {} ∧
     (({ asked 1 1 (.mem x) {} with tiles := [(1, { e := { store := List.replicate 255 ⟨0, 0, 0, 0⟩ } })] } : State).tile 1).e.store.length < 256) := by
  simp only [State.nextAt]; decide

theorem witness_HomesServeCopies :
    let m (q : MemReq) := msg 67108864 1 13 3 (.mem q)
    let c := req .claim 64 64 0
    let i := req .increment 131064 8 1
    (asked 1 3 (.mem c) { resv := [⟨8, 0, 0⟩, ⟨16, 0, 0⟩] }).nextAt 1 (m c) c [] ∧ (asked 1 3 (.mem i) {}).nextAt 1 (m i) i [] ∧
    (let s := asked 1 5 (.copyLine 64 6 0x010200 3) { claims := [⟨1, 0, 3⟩] }
     pickReq s 1 [] (s.home 1).inbox = some (msg 67108864 1 13 5 (.copyLine 64 6 0x010200 3), []) ∧ forwardOf s 1 64 = none ∧ 0 < popN 64 6) ∧
    (let s := asked 1 5 (.copyLine 64 0 0 3) { claims := [⟨1, 0, 3⟩] }
     pickReq s 1 [] (s.home 1).inbox = some (msg 67108864 1 13 5 (.copyLine 64 0 0 3), []) ∧ forwardOf s 1 64 = none ∧ s.ringTile 1 = false) ∧
    (let e := 67108864
     let q := req (.load false) 64 8 0
     let s := asked e 3 (.mem q) { forwards := [(0, { v := true, fwd := true, chunk := 0, target := 68719476736 })] }
     pickReq s e [] (s.home e).inbox = some (msg 67108864 e 13 3 (.mem q), []) ∧
     forwardOf s e 64 = some { v := true, fwd := true, chunk := 0, target := 68719476736 } ∧
     edgeHome (homeWafer e) ((68719476736 + 64 % 2097152) / 68719476736 % 128) ≠ e ∧ s.inSystem (homeWafer e) (homeWafer e) = true ∧
     s.homeRoom e 13 1 = true) ∧ (asked 1 3 (.mem i) {}).ringTile 1 = false ∧
    (let p : State := { asked 1 3 (.mem i) {} with tiles := [(1, { c := { poison := [(16383, true)] } })] }
     p.nextAt 1 (m i) i [] ∧ poisonedAt p 1 131064 8 = true) := by
  simp only [State.nextAt]; decide

/-- The last access of an instruction, outstanding at tile 1. -/
def lastOf (d : OutDst) (cls : Nat) : Out :=
  { id := 3, parts := [⟨1, cls, 0⟩], dst := d, aq := false, pc := 0, word := 0, flats := [(0, 0)], issued := 0, posted := false }
/-- An access of t0 outstanding, its answer in the inbox; its issue 1,048,575 and 1,048,576 ns ago. -/
def waiting (d : OutDst) (b : Payload) (kind region now : Nat) : State :=
  { at_ 0 {} { ts := .running, outs := [lastOf d 2] } {} with
    homes := [(0, { inbox := [{ msg 67108864 0 14 kind b with region := region }] })], now := now }
theorem witness_ResponsesCompleteAccesses : ∀ d ∈ [OutDst.x 5 4 true, .f 5, .test 5 1, .v 5 0, .nowhere, .gone],
    let s := waiting d (.resp 3 0 9 false 0) 4 0 1048576
    s.outOf 0 3 = some (0, lastOf d 2) ∧ (lastOf d 2).without 0 = [] ∧ s.increments 0 3 = none ∧
      (s.home 0).inbox = [{ msg 67108864 0 14 4 (.resp 3 0 9 false 0) with region := 0 }] ∧ (lastOf d 2).issued + 1048576 ≤ s.now ∧
      s.flown 0 (lastOf d 2) = (lastOf d 2).parts ∧ (lastOf d 2).parts ≠ [] ∧
      (waiting d (.resp 3 0 9 true 0) 4 0 1048575).now < (lastOf d 2).issued + 1048576 ∧ (s.thread 0 0).run.ts = .running ∧
      (s.thread 0 0).run.accFailed = false ∧ (lastOf d 2).bad = none ∧ ((lastOf d 2).dst.silent = true ↔ d = .nowhere ∨ d = .gone) ∧ (s.cutOut 0 0 3).midway 0 0 = false := by decide
/-- The thread stands within another vector load when the access fails. -/
theorem witness_ResponsesCompleteAccesses_midway :
    (({ at_ 0 {} { ts := .running, outs := [lastOf .nowhere 1, { lastOf (.v 5 0) 2 with id := 4 }] } {} with
      homes := [(0, { inbox := [msg 67108864 0 14 4 (.resp 3 0 9 true 0)] })] } : State).cutOut 0 0 3).midway 0 0 = true := by decide
/-- A vector load with two elements outstanding, and one whose first element has failed. -/
theorem witness_ResponsesCompleteAccesses_lanes :
    let o (l : List OutPart) (b : Option (Nat × Nat × Nat)) := { lastOf (.v 5 0) 2 with parts := l, bad := b, flats := [(8, 64), (136, 72)] }
    let s (x : Out) (poisoned : Bool) : State := { at_ 0 {} { ts := .running, outs := [x] } {} with
      homes := [(0, { inbox := [msg 67108864 0 14 4 (.resp 3 8 9 poisoned 0)] })] }
    let two := o [⟨1, 2, 8⟩, ⟨1, 2, 136⟩] none
    two.without 8 ≠ [] ∧ (∀ p ∈ [false, true], (s two p).outOf 0 3 = some (0, two) ∧ (s two p).increments 0 3 = none ∧
      ((s two p).home 0).inbox = [msg 67108864 0 14 4 (.resp 3 8 9 p 0)]) ∧
    (let one := o [⟨1, 2, 8⟩] (some (72, 0x21, 1))
     one.without 8 = [] ∧ (s one false).outOf 0 3 = some (0, one) ∧ (s one false).me.run.accFailed = false ∧
       (((s one false).modHome 0 (fun q => { q with inbox := [] })).cutOut 0 0 3).midway 0 0 = false) ∧
    (let n : Out := { lastOf .nowhere 1 with parts := [⟨1, 1, 8⟩, ⟨1, 1, 136⟩] }
     n.dst.silent = true ∧ n.without 8 ≠ [] ∧ (s n false).outOf 0 3 = some (0, n)) := by decide
/-- The header of a refused message to tile 1. -/
def refusedHdr (kind : Nat) : Header := ⟨67108928, 67108864, 13, kind, false, 0, 1, 0, 0, 0, 0, 0⟩
theorem witness_ErrorsReachTheSource :
    let b (reason kind : Nat) (awaited : Bool) : Payload := .error reason (refusedHdr kind) 3 0 awaited 0
    let e (reason kind : Nat) (awaited : Bool) (d : OutDst) (region : Nat) := waiting d (b reason kind awaited) 8 region 0
    let m (reason kind region : Nat) (awaited : Bool) : Msg := { msg 67108864 0 14 8 (b reason kind awaited) with region := region }
    ((e 1 1 false .nowhere 0).home 0).inbox = [m 1 1 0 false] ∧ (base 0).regionIdOf 0 = 0 ∧ ((e 4 2 false .nowhere 0).home 0).inbox = [m 4 2 0 false] ∧
    ((e 4 2 false .nowhere 1).home 0).inbox = [m 4 2 1 false] ∧
    ((e 5 3 true (.x 5 8 false) 0).home 0).inbox = [m 5 3 0 true] ∧
    (e 5 3 true (.x 5 8 false) 0).outOf 0 3 = some (0, lastOf (.x 5 8 false) 2) ∧
    ((e 5 3 true (.x 5 8 false) 0).cutOut 0 0 3).midway 0 0 = false ∧ (e 5 3 true (.x 5 8 false) 0).me.run.accFailed = false ∧
    (lastOf (.x 5 8 false) 2).bad = none ∧ islandSlot (clusterOf 0) = false ∧
    (e 1 3 false .nowhere 0).outOf 0 3 = some (0, lastOf .nowhere 2) ∧ (lastOf .nowhere 2).without 0 = [] ∧
    (e 4 2 false .nowhere 0).me.run.ts = .running ∧ (refusedHdr 6).kind = 6 ∧
    (let c : CopyEntry := ⟨2, 0, 0, 0, 0, 0, 0, 0, 0, 0, 0, 0, 0, 0, .none, 0, 0, .increment, 3, [], 0⟩
     let s : State := { e 4 3 false .nowhere 0 with tiles := [(0, { e := { copies := [c] } })] }
     s.increments 0 3 = some c ∧ s.entryOf 0 c.serial = some c) := by decide
/-! Tasks, barriers, quiescence -/

/-- The memory that holds one word at the start of tile 0's scratchpad. -/
def code (w : Nat) : Memory := Memory.writeNat [] 0 4 w
def word8 (key v : Nat) : Memory := Memory.writeNat [] key 8 v

/-- The last 32 bytes of the scratchpad hold a record that is all zero; one whose code offset is not word-aligned is malformed. -/
theorem witness_RecordsEnterQueues :
    let a := own + 131072 - 32
    let s := at_ 0 (regs [(5, a), (6, 67108928)]) going {}
    pathOf a = 1 ∧ addrName a = s.nameOf 0 ∧ addrWin a = 0 ∧ addrOff a + 32 ≤ 131072 ∧ a % 8 = 0 ∧ s.heldOrder 0 0 clsR 0 = false ∧
    s.heldOrder 0 0 clsW 0 = false ∧ s.heldOrder 0 0 clsW (nameTile (s.getXn 6 % 2 ^ 34)) = false ∧ waferOf 0 < 64 ∧ ownReady s 0 (addrOff a) 32 = true ∧ mqConflict s ⟨0, addrOff a, s.nameOf 0⟩ 32 false = false ∧
    (∀ k, k < 4 → poisonedAt s 0 (addrOff a + 8 * k) 8 = false) ∧ isTileHome 0 = true ∧ readRecord s a = .ok 0 0 0 ∧
    readRecord { s with mem := word8 (padKey 0 (addrOff a + 16)) 2 } a = .trap 0x05 a ∧ s.roomFor 0 0 = true ∧ s.settled true ∧
    s.me.r.qwV = false ∧ 2 ≤ (at_ 0 { qwV := true, weight := 2 } going {}).me.r.weight ∧ (s.cluster 0).queue 0 = [] ∧
    s.canInject 0 12 2 = true ∧ s.passes 0 67108928 1 ∧ s.canTrap ∧ s.undisturbed ∧ s.me.run.wait = none ∧
    (withTile { rt := { bufs := [(bufKey 4 12 false, [{ msg 67108928 1 12 2 (.task 0 0 0 0) with len := 5 }])] } }).canInject 0 12 2 = false := by
  simp only [State.settled, State.undisturbed, canTrap_iff, passes_iff]
  refine ⟨?_, ?_, ?_, ?_, ?_, ?_, ?_, ?_, ?_, ?_, ?_, ?_, ?_, ?_, ?_, ?_⟩ <;> decide
/-- A record whose fields are all zero but one. -/
def plainRec (dw1 : Nat) : TaskRec :=
  { frame := 0, dw1 := dw1, dw2 := 0, target := none, enqueued := 0, guest := 0, sent := 0, reserved := false, resume := none }
theorem witness_RecordsEnterQueues_messages :
    let full : Cluster := { queues := [(0, List.replicate 240 ⟨plainRec 0, none, 0⟩)] }
    let m (d2 : Nat) := msg 67108864 0 12 2 (.task 0 0 d2 1)
    ((inboxOf 0 [m 0] (base 0)).home 0).inbox = [m 0] ∧ isTileHome (m 0).srcHome = true ∧ (base 0).passes 0 (m 0).src (m 0).srcHome ∧
    recBad 0 0 = false ∧ recBad 0 2 = true ∧ (base 0).roomFor 0 0 = true ∧
    (inboxOf 0 [m 0] { base 0 with clusters := [(0, full)] }).roomFor 0 0 = false ∧ (base 0).staleName 0 (base 0 |>.nameOf 1) = false ∧
    ((base 0).island (islandOfCluster 0)).heldRecs = [] ∧ islandSlot 0 = false ∧
    ((base 1).heldOrder 0 1 clsW 0 = false ∧ (base 1).roomFor 0 0 = true ∧ (base 1).settled true) := by
  simp only [passes_iff, State.settled]; decide

/-- Two units and one, with the domain in use and FREE; asked, refused. -/
theorem witness_RecordsEnterQueues_leaven :
    let s (w : Nat) (g : GiveWait) (st : Nat) : State := { at_ 0 { regs [(5, own), (6, 67108928)] with qwV := true, weight := w } { ts := .running, give := g } {} with
      clusters := [(0, { domains := [(0, { state := st, root := 67108928 })] })] }
    (∀ w ∈ [1, 2], ∀ g ∈ [GiveWait.none, .asked, .refused], ∀ st ∈ [0, 1], readRecord (s w g st) own = .ok 0 0 0 ∧ (s w g st).me.r.qwV = true ∧
      (s w g st).heldOrder 0 0 clsW 0 = false ∧ (s w g st).roomFor 0 0 = true ∧ (s w g st).heldOrder 0 0 clsW 1 = false ∧
      (s w g st).canInject 0 12 2 = true ∧ ((s w g st).domain 0 0).state = st ∧ (s w g st).me.run.clear ∧ (s w g st).settled true ∧
      (s w g st).undisturbed) ∧ nameTile 67108928 = 1 ∧ (s 1 .none 1).passes 0 67108928 1 := by
  simp only [passes_iff, State.settled, State.undisturbed]; decide
/-- Members at their `tend`: attached, detached in a gathering and in a dissolved one, and the leader before and after them. -/
theorem witness_TasksEndAndJoin_members :
    let s (r : Role) (d : Bool) : State := at_ 0 {} { ts := .running, gather := { role := r, index := 0, size := 2, leader := 0, dissolved := d } } {}
    (∀ r ∈ [Role.attached, .detached, .leader], ∀ d ∈ [false, true], (s r d).switched = true ∧ (s r d).mayEnd = true ∧
      (s r d).returnRoom 0 0 = true ∧ (s r d).roomToIssue 0 0 = true ∧ (s r d).me.run.clear) ∧ (s .leader false).attachedOf 0 = [] ∧
    ({ s .leader false with tiles := [(0, { thr := [(0, ⟨{}, { ts := .running, gather := { role := .leader, index := 0, size := 2, leader := 0 } }⟩)] }),
      (1, { thr := [(0, ⟨{}, { ts := .running, gather := { role := .attached, index := 1, size := 2, leader := 0 } }⟩)] })] } : State).attachedOf 0 ≠ [] := by
  decide

theorem witness_TasksEndAndJoin :
    let s := at_ 0 (regs [(5, own + 0x20000 - 40), (6, own + 0x20000 - 32), (7, own + 4)]) going {}
    s.me.run.gather.role = .solo ∧ s.switched = true ∧ s.mayEnd = true ∧ s.returnRoom 0 0 = true ∧ s.roomToIssue 0 0 = true ∧
    s.canInject 0 13 2 = true ∧ s.myTile.e.unsent = [] ∧ s.heldOrder 0 0 (clsR + clsW) 0 = false ∧ s.passes 0 67108864 0 ∧
    (at_ 0 {} { ts := .running, task := some ⟨plainRec 9223372036854775808, 0, 0, 0⟩ } {}).me.run.task =
      some ⟨plainRec 9223372036854775808, 0, 0, 0⟩ ∧ recJv 9223372036854775808 = true ∧
    (let b := at_ 0 {} { ts := .running, outs := [lastOf (.x 5 8 false) 2] } {}
     b.mayEnd = false ∧ b.me.run.clear ∧ b.switched = true) ∧
    s.joinConflict (s.getXn 5) = false ∧ s.me.run.fences = [] ∧ (at_ 1 {} {} {}).takeable 0 1 = false ∧
    { at_ 1 {} {} {} with wafers := [(0, { locked := true })] }.takeable 0 1 = true ∧ pathOf (s.getXn 5) = 1 ∧ addrWin (s.getXn 5) = 0 ∧ addrOff (s.getXn 5) + 40 ≤ 0x20000 ∧ s.getXn 5 % 8 = 0 ∧
    s.settled true ∧ s.me.r.qwV = false ∧ s.canTrap ∧ 0x20000 < addrOff (s.getXn 6) + 40 ∧ s.getXn 7 % 8 ≠ 0 ∧
    taskinfoValue s 0 = some 0 ∧ taskinfoValue s 31 = some 0 ∧ taskinfoValue s 9 = none ∧
    (let q := req .jdec 64 8 0
     let t := asked 1 3 (.mem q) {}
     t.nextAt 1 (msg 67108864 1 13 3 (.mem q)) q [] ∧ t.mem.readNat (homeKey 1 64) 8 = 0 ∧ poisonedAt t 1 64 40 = false ∧
     ({ t with mem := word8 (homeKey 1 64) 1 } : State).mem.readNat (homeKey 1 64) 8 = 1 ∧
     2 ≤ ({ t with mem := word8 (homeKey 1 64) 2 } : State).mem.readNat (homeKey 1 64) 8 ∧ t.regionIdOf 1 = 0 ∧ (t.cluster 0).queue 0 = []) ∧
    islandSlot (clusterOf 0) = false ∧ (at_ 1 {} {} {}).regionIdOf 0 < 256 := by
  simp only [State.settled, State.nextAt, canTrap_iff, passes_iff]; decide

/-- A thread asleep at `bwait x5, x6` and at `cwaitge x5, x6` on the word at its scratchpad's start, with the wake in the inbox. -/
def watching (w kind id now : Nat) (l : List Msg) : State :=
  { at_ 0 (regs [(5, own), (6, 0)]) { ts := .sleeping, phase := inWatch, phaseVal := 7, wait := some ⟨kind, own, 0, 0⟩ } {} with
    mem := code w, homes := [(0, { inbox := l })], now := now, fresh := id }
def wakeMsg (id v : Nat) : Msg := msg 67108864 0 14 4 (.wake id v)
theorem witness_BarriersAndCounters :
    let s := at_ 0 (regs [(5, own + 131064), (6, 1)]) going {}
    s.ownBytes (s.getXn 5) 8 ∧ s.ownFree (addrOff (s.getXn 5)) 8 true ∧ poisonedAt s 0 131064 8 = false ∧ s.settled true ∧
    s.me.run.answer = none ∧ s.me.reading = false ∧ s.undisturbed ∧ s.me.run.wait = none ∧
    s.mem.readNat (padKey 0 131064) 8 / 2 ^ 48 ≠ s.getXn 6 % 65536 ∧ ¬(s.getXn 6 ≤ s.mem.readNat (padKey 0 131064) 8) ∧
    s.mem.readNat (padKey 0 131064) 8 / 2 ^ 48 = s.getXn 7 % 65536 ∧ s.getXn 7 ≤ s.mem.readNat (padKey 0 131064) 8 ∧
    (s.home 0).watches.length < 64 := by
  simp only [ownBytes_iff, ownFree_iff, State.settled, State.undisturbed]; decide
theorem witness_BarriersAndCounters_wakes :
    let b := watching 0x0262A02B 3 0 1024 [wakeMsg 7 (2 ^ 48)]
    let c := watching 0x0462A02B 2 0 1024 [wakeMsg 7 0]
    b.waitsWord = true ∧ c.waitsWord = true ∧ (b.home 0).inbox = [wakeMsg 7 (2 ^ 48)] ∧ (wakeMsg 8 0).body = .wake 8 0 ∧
    (∃ s', ((b.modHome 0 (fun q => { q with inbox := [] })).standsAt s' (.bwait ⟨false, 0, 5, 6⟩) ∧
      (bwaitFor ⟨false, 0, 5, 6⟩ s').met (2 ^ 48) = true) ∧ s'.settled false) ∧
    (∃ s', ((c.modHome 0 (fun q => { q with inbox := [] })).standsAt s' (.cwaitge ⟨false, 0, 5, 6⟩) ∧
      (cwaitFor ⟨false, 0, 5, 6⟩ s').met 0 = true) ∧ s'.settled false) ∧
    b.watched 0 0 = false ∧ b.me.run.watchAt + 1024 ≤ b.now ∧
    (∃ s', (watching 0x0262A02B 3 0 1024 []).standsAt s' (.bwait ⟨false, 0, 5, 6⟩) ∧ s'.me.run.answer = none ∧ s'.me.reading = false ∧
      s'.focus.thread ≤ 1) ∧
    (∃ s', (watching 0x0462A02B 2 0 1024 []).standsAt s' (.cwaitge ⟨false, 0, 5, 6⟩) ∧ s'.me.run.answer = none ∧
      s'.ownBytes (cwaitFor ⟨false, 0, 5, 6⟩ s').addr 8 ∧ s'.ownFree (addrOff (cwaitFor ⟨false, 0, 5, 6⟩ s').addr) 8 true ∧
      poisonedAt s' s'.focus.tile (addrOff (cwaitFor ⟨false, 0, 5, 6⟩ s').addr) 8 = false ∧
      (cwaitFor ⟨false, 0, 5, 6⟩ s').met (s'.mem.readNat (padKey s'.focus.tile (addrOff (cwaitFor ⟨false, 0, 5, 6⟩ s').addr)) 8) = true ∧
      s'.settled false) ∧
    (∃ s', { watching 0x0262A02B 3 0 1024 [] with mem := (code 0x0262A02B).writeNat 6 1 1 }.standsAt s' (.bwait ⟨false, 0, 5, 6⟩) ∧
      (bwaitFor ⟨false, 0, 5, 6⟩ s').met (s'.mem.readNat (padKey s'.focus.tile (addrOff (bwaitFor ⟨false, 0, 5, 6⟩ s').addr)) 8) = true) := by
  exact ⟨by decide, by decide, by decide, rfl, ⟨_, ⟨rfl, by decide⟩, Or.inl rfl, rfl, rfl⟩, ⟨_, ⟨rfl, by decide⟩, Or.inl rfl, rfl, rfl⟩, by decide, by decide,
    ⟨_, rfl, rfl, rfl, by decide⟩,
    ⟨_, rfl, rfl, (ownBytes_iff _ _ _).2 (by decide), (ownFree_iff _ _ _ _).2 (by decide), by decide, by decide, Or.inl rfl, rfl, rfl⟩, ⟨_, rfl, by decide⟩⟩

/-- The domains 0 (ACTIVE), 1 (QUIET), 2 (LOST), 3 (RETIRED) of cluster 0, their root at tile 0. -/
def doms (home : Int) : State := { at_ 0 (regs [(5, 1), (6, 2), (7, 3), (8, 63), (9, 64)]) going {} with
  clusters := [(0, { domains := [(0, ⟨1, true, 67108864, home⟩), (1, ⟨2, true, 67108864, 0⟩), (2, ⟨3, true, 67108864, 0⟩), (3, ⟨4, true, 67108864, 0⟩)] })] }
/-- A refused unit of a copy request that holds a share of domain 0, and a refused borrow. -/
theorem witness_ErrorsReachTheSource_copies :
    let c : CopyEntry := ⟨5, 1, 0, 0, 0, 0, 0, 0, 0, 0, 0, 0, 4, 0, .none, 0, 0, .issuing, 0, [], 0⟩
    let u : CopyUnit := ⟨3, 5, 0, 1, 0, 0, 8, 0, 0, [], 0, 0, false, false, true⟩
    let m (kind id cls : Nat) := msg 67108864 0 14 8 (.error 1 (refusedHdr kind) id 0 false cls)
    let s (e : Engines) (x : Msg) : State := inboxOf 0 [x] { doms 0 with tiles := [(0, { e := e })] }
    let t := s { copies := [c], units := [u] } (m 3 3 2)
    (t.home 0).inbox = [m 3 3 2] ∧ (t.tile 0).e.units.find? (fun x => x.id == 3) = some u ∧ t.entryOf 0 u.serial = some c ∧
    (m 3 3 2).region = t.regionIdOf 0 ∧ weightBits c.share ≠ [] ∧ (t.domain (clusterOf 0) c.dom).state ≠ 0 ∧ t.passes 0 67108864 0 ∧
    islandSlot (clusterOf 0) = false ∧ isTileHome 0 = true ∧ (s { units := [u] } (m 3 3 2)).entryOf 0 u.serial = none ∧
    (let b := inboxOf 0 [m 7 1 0] (at_ 1 {} { ts := .running, give := .asked } {})
     (b.home 0).inbox = [m 7 1 0] ∧ (refusedHdr 7).aux / 16384 = 0 ∧ b.asksFor 0 1 0 = true) := by
  simp only [passes_iff]; decide
theorem witness_QuiescenceInstructions : let s := doms 0
    s.settled true ∧ s.returnRoom 0 0 = true ∧ (s.rootState 0 0).1 = 1 ∧ (s.rootState 0 1).1 = 2 ∧ (s.rootState 0 2).1 = 3 ∧ (s.rootState 0 3).1 = 4 ∧
    (s.rootState 0 63).1 = 0 ∧ s.getXn 8 ≤ 63 ∧ 63 < s.getXn 9 ∧ ¬(s.me.r.qwV = true) ∧ s.switched = true ∧ fenceWaits s 2 5 = false ∧ s.undisturbed ∧ s.me.run.wait = none ∧
    (at_ 0 { qwV := true, weight := 1 } going {}).returnRoom 0 1 = true ∧
    (withTile { e := { returns := List.replicate 16 (0, 0, 0, []) } }).returnRoom 0 1 = false ∧
    s.me.run.clear ∧ s.canTrap ∧ s.me.run.phase ≠ 4 ∧
    s.passes 0 (s.homeName (islandHome (s.policing (s.regionOf 0) (islandOf 0)))) (islandHome (s.policing (s.regionOf 0) (islandOf 0))) := by
  simp only [State.settled, State.undisturbed, canTrap_iff, passes_iff]; decide

/-- A thread asleep at an instruction of its scratchpad with its answer in the inbox. -/
def slept (w : Nat) (run : Run) (m : Msg) : State :=
  { at_ 0 (regs [(5, 1)]) { run with ts := .sleeping } {} with mem := code w, homes := [(0, { inbox := [m] })] }
theorem witness_QuiescenceAnswers :
    let i := islandHome 0
    let a := msg 0 i 15 9 .allocate
    let asks (s : State) : State := s.modMe (fun t => t.modRun (fun r => { r with ts := .sleeping, phase := inQwroot, wait := some ⟨6, 0, 0, 0⟩ }))
    (inboxOf i [a] (asks (doms 0))).callerWaits a inQwroot = true ∧ (inboxOf i [a] (doms 0)).callerWaits a inQwroot = false ∧
    (asks (doms 0)).passes i 67108864 0 ∧ ((inboxOf i [a] (doms 0)).home i).inbox = [a] ∧ (doms 0).domClusters ((doms 0).regionOf 0) 0 = [0] ∧
    ((doms 0).domain 0 4).state = 0 ∧ (∀ k, k < 4 → ((doms 0).domain 0 k).state ≠ 0) ∧
    (∀ k, k < 64 → (({ base 0 with clusters := [(0, { domains := (List.range 64).map (fun n => (n, ⟨1, true, 67108864, 0⟩)) })] } : State).domain 0 k).state ≠ 0) ∧
    (let m := { msg 67108864 0 15 9 (.callReply 5 0) with aux := 16384 }
     let s := slept 0x000012AB { phase := 4, wait := some ⟨6, 0, 0, 0⟩ } m
     s.replyKept inQwroot = none ∧ callAnswer s 4 = some (m, []) ∧ s.me.callOpen inQwroot m.seq = true ∧ s.me.run.ts = .sleeping ∧
     s.returnRoom 0 0 = true ∧ (base 0).me.callOpen inQwroot m.seq = false ∧
     (at_ 0 {} { ts := .stopped, phase := 4, wait := some ⟨6, 0, 0, 0⟩ } {}).me.callOpen inQwroot m.seq = true ∧
     ∃ s', ((s.modHome 0 (fun q => { q with inbox := [] })).modMe (·.takeReply 5 0)).standsAt s' (.qwroot ⟨false, 5, 0, 0⟩) ∧ s'.settled false) ∧
    (let m := msg 67108864 0 15 9 (.quiet 1 0)
     let s := slept 0x020292AB { wait := some ⟨4, 0, 1, 0⟩ } m
     s.me.run.wait = some ⟨4, 0, 1, 0⟩ ∧ s.me.pendDone = true ∧ fenceWaits s 2 5 = false ∧
     ∃ s', (s.modHome 0 (fun q => { q with inbox := [] })).standsAt s' (.qwait ⟨false, 5, 5, 0⟩) ∧ s'.settled false ∧
       s'.switched = true ∧ fenceWaits s' 2 5 = false) ∧
    ((doms 0).regClusters 0).find? (fun c => ((doms 0).domain c 0).here) = some 0 ∧ ((doms 0).domain 0 0).state = 1 ∧
    3 * 2 ^ 61 / 2 ^ 61 % 8 = 3 ∧ clusterOf (nameTile ((doms 0).domain 0 0).root) = 0 ∧ ((doms 0).domain 0 3).state = 4 := by
  simp only [passes_iff]
  refine ⟨by decide, by decide, by decide, by decide, by decide, by decide, by decide, by decide,
    ⟨by decide, by decide, by decide, by decide, by decide, by decide, by decide, _, rfl, Or.inl rfl, rfl, rfl⟩,
    ⟨by decide, by decide, by decide, _, rfl, ⟨Or.inl rfl, rfl, rfl⟩, rfl, rfl⟩, by decide, by decide, by decide, by decide, by decide⟩

/-- The whole weight but one unit at HOME, and a HOME that the last borrow has brought to its floor. -/
theorem witness_LeavenAtTheRoot :
    let ret := { msg 67108864 0 15 6 (.leavenReturn 0 0) with lv := true, lexp := 62 }
    let rel := { msg 67108864 0 15 6 (.leavenReturn 1 0) with lv := true, lexp := 62 }
    let bor := msg 67108864 0 15 7 (.borrow 0 0 1)
    let s (m : Msg) (home : Int) := inboxOf 0 [m] (doms home)
    ((s ret (2 ^ 62 - 1)).home 0).inbox = [ret] ∧ shareOf 62 = 1 ∧ ((s ret (2 ^ 62 - 1)).domain 0 0).home + shareOf 62 = 2 ^ 62 ∧
    2 ^ 62 < ((s ret (2 ^ 62)).domain 0 0).home + shareOf 62 ∧ ((s ret 0).cluster 0).borrows = [] ∧ isTileHome 0 = true ∧
    ((s rel 0).home 0).inbox = [rel] ∧ ((s rel 0).domain 0 0).here = true ∧ ((s rel 0).domain 0 0).state = 1 ∧
    (s rel 0).passes 0 67108864 (nameTile 67108864) ∧ -(2 : Int) ^ 62 ≤ ((s bor (2 ^ 40 - 2 ^ 62)).domain 0 0).home - 2 ^ 40 ∧
    ((s bor (2 ^ 40 - 2 ^ 62 - 1)).domain 0 0).home - 2 ^ 40 < -(2 : Int) ^ 62 ∧ ((inboxOf 0 [bor] (base 0)).domain 0 0).here = false ∧
    (s rel 0).staleName 0 ((s rel 0).domain 0 0).root = false ∧ (s rel 0).staleName 0 ((67108864 * 2) : Nat) = true ∧
    (at_ 1 {} { ts := .running, give := .asked } {}).asksFor 0 1 0 = true ∧ (base 1).asksFor 0 1 0 = false ∧ bor.aux % 64 = 0 ∧
    (let t : State := { at_ 0 {} { ts := .sleeping, wait := some ⟨0, 0, 0, 0⟩ } {} with
       clusters := [(0, {})], regions := [(0, { clusters := [0], hangSince := some 0 })], now := 100000 }
     t.hung 0 = true ∧ (t.region 0).hangWindow ≠ 0 ∧ (t.region 0).hangRaised = false ∧ (t.region 0).hangWindow ≤ t.hungFor 0 ∧
     (∀ x ∈ t.postedWaits 0, x.2.2.kind ≠ 4)) ∧ (base 0).hung 0 = false := by
  simp only [passes_iff]; decide
/-! Gatherings, the policy engine, faults, contexts -/

/-- Tiles 0 and 1 with the runs given; the step is tile 0's t0. -/
def pair (a b : Run) (mem : Memory) : State :=
  { tiles := [(0, { thr := [(0, ⟨regs [(5, 2), (6, 3), (7, 1)], a⟩)] }), (1, { thr := [(0, ⟨{}, b⟩)] })], focus := ⟨0, 0, 0⟩, mem := mem, wafers := [(0, { locked := true })] }
def lead (ph : Nat) : Run := { ts := .sleeping, phase := ph, wait := some ⟨3, 0, 0, 0⟩, gather := { role := .leader, size := 2 } }
def follow (role : Role) (ph : Nat) : Run :=
  { ts := .sleeping, phase := ph, wait := some ⟨3, 0, 0, 0⟩, gather := { role := role, index := 1, size := 2, leader := 0 } }
theorem witness_GatheringsFormAndMeet : let s := pair going {} []
    joinCheck s (s.getXn 6) = 1 ∧ joinCheck s (s.getXn 7) = 0 ∧ joinCheck s (s.getXn 5) = 0 ∧ s.getXn 5 = 2 ∧ s.switched = true ∧ s.me.run.clear ∧
    joinCheck (pair going going []) 2 = 3 ∧ s.me.run.rep = none ∧ s.undisturbed ∧ s.settled true ∧ s.me.run.gather.role = .solo ∧
    (pair { lead 0 with ts := .running } (follow .left 0) []).attachedOf 0 = [] ∧ (pair (lead 0) (follow .attached 0) []).attachedOf 0 = [1] ∧
    (pair (lead 0) (follow .left 0) []).resultsIn 0 = true ∧ (pair (lead 0) (follow .left 0) []).myTile.e.mq = [] ∧
    (pair { follow .attached 0 with ts := .running, wait := none } {} []).mayEnd = true ∧
    (pair { follow .detached 0 with ts := .running, wait := none } {} []).me.run.gather.dissolved = false ∧ s.performedAll 0 = true ∧
    (pair (lead 0) (follow .left 0) []).membersIn 0 .detached = [] ∧ s.me.run.livePend.length < 8 ∧
    (pair (lead 0) (follow .attached 0) []).gsyncReady 0 = false ∧ (pair (lead 0) (follow .attached 0) []).grejoinReady 0 = false := by
  simp only [State.settled, State.undisturbed]; decide
/-- The leader and its attached follower in `gsync`; the leader and its detached follower in `grejoin`. -/
theorem witness_GatheringsFormAndMeet_together :
    (let s := pair (lead 3) (follow .attached 3) (code 0x0600302B)
     s.me.run.gather.role = .leader ∧ s.waitsIn 0 3 = true ∧ s.gsyncReady 0 = true ∧
     ∃ s', s.standsAt s' (.gsync ⟨false, 0, 0, 0⟩) ∧ s'.focus.tile = 0 ∧ s'.focus.thread = 0 ∧ s'.attachedOf 0 = [1] ∧ (s'.thread 1 0).run.pend = []) ∧
    (let s := pair (lead 2) (follow .detached 2) (code 0x0400302B)
     s.waitsIn 0 2 = true ∧ s.grejoinReady 0 = true ∧ s.waitsIn 0 3 = false ∧
     ∃ s', s.standsAt s' (.grejoin ⟨false, 0, 0, 0⟩) ∧ s'.membersIn 0 .detached = [1]) := by
  exact ⟨⟨by decide, by decide, by decide, _, rfl, rfl, rfl, by decide, rfl⟩, by decide, by decide, by decide, _, rfl, by decide⟩

/-- A cluster with one record, an event, and an image in slot 0. -/
def deciding (img : Tab Nat) (dis : Bool) (ev : PEvent) : State :=
  { base 0 with clusters := [(0, { queues := [(2, [⟨{ plainRec 0 with frame := 7, dw2 := 0x8000 }, none, 0⟩])], events := [ev], recipeDis := dis, img := img })],
                wafers := [(0, { locked := true })], now := 1048576 }
/-- `st k0, s1` and the end; `pass`; a loop of 16 turns of eight words; `act 1` and the end. -/
theorem witness_PolicyDecides :
    let arrive : PEvent := ⟨0, 0, 2, 0, 0⟩
    let fault : PEvent := ⟨5, threadIndex 0 1, 0, 1, 1⟩
    let rec_ : QRec := ⟨{ plainRec 0 with frame := 7, dw2 := 0x8000 }, none, 0⟩
    let spin : Tab Nat := [(0, 43008), (1, 2176), (2, 2176), (3, 2176), (4, 2176), (5, 2176), (6, 2176), (7, 2176), (8, 45056)]
    let s := deciding [] true arrive
    (s.cluster 0).queue 2 = [rec_] ∧ (s.cluster 0).prepared = none ∧ (s.cluster 0).prepAck = false ∧ s.nextEvent 0 0 = some arrive ∧
    (s.dropEvent 0 arrive).choose 0 rec_.tr false = some (1, 0) ∧ s.serves 0 ⟨0, 0, 0, 0, 0⟩ = true ∧
    rec_.tr.enqueued + (s.cluster 0).ageLimit * 1024 ≤ s.now ∧ s.choose 0 rec_.tr true = some (1, 0) ∧
    (let a := deciding [(0, 40961)] false arrive
     ∃ d, decideBy (a.dropEvent 0 arrive) 0 arrive = .ended d ∧ d.picks = [] ∧ d.evicts = [] ∧ d.charges = [] ∧ d.scratch = [(1, 0)]) ∧
    decideBy ((deciding [(0, 49152)] false arrive).dropEvent 0 arrive) 0 arrive = .passed ∧
    decideBy ((deciding spin false arrive).dropEvent 0 arrive) 0 arrive = .overrun ∧
    (let f := { deciding [(0, 53249)] false fault with tiles := [(0, { thr := [(1, { run := { ts := .stopped } })] })] }
     f.nextEvent 0 2 = some fault ∧ causeClass 1 = .tile ∧ tileIn 0 (fault.thread / 2) = 0 ∧ fault.thread % 2 = 1 ∧
     (f.thread 0 1).run.ts = .stopped ∧ ∃ d, decideBy (f.dropEvent 0 fault) 0 fault = .ended d ∧ d.picks = [] ∧ d.evicts = [] ∧ d.charges = [] ∧
       d.scratch = [] ∧ d.act = some 1) ∧
    (let e : PEvent := ⟨6, 0, 0, 0, 0⟩
     let o := deciding spin false e
     firstEvent (o.cluster 0).events = some e ∧ o.serves 0 e = true ∧ decideBy (o.dropEvent 0 e) 0 e = .overrun ∧ (o.cluster 0).overruns < 4294967295) := by
  refine ⟨by decide, by decide, by decide, by decide, by decide, by decide, by decide, by decide, ⟨_, rfl, rfl, rfl, rfl, rfl⟩, by decide, by decide,
    ⟨by decide, by decide, by decide, by decide, by decide, _, rfl, rfl, rfl, rfl, rfl, rfl⟩, by decide⟩

/-- `ldi k0, 2; ldi k1, 1; pick k0, k1, 0`; `ldi k0, 1; ldi k1, 100; charge k0, k1` of a task of region 0 that has 50 left; `ldi k0, 1; evict k0`. -/
theorem witness_PolicyDecides_effects :
    let arrive : PEvent := ⟨0, 0, 2, 0, 0⟩
    let rec_ : QRec := ⟨{ plainRec 0 with frame := 7, dw2 := 0x8000 }, none, 0⟩
    let p := deciding [(0, 2050), (1, 2177), (2, 47112)] false arrive
    let tk : TaskInfo := ⟨plainRec 0, 0, 0, 0⟩
    let b := 2 ^ 63 + 50
    let busy : Tab Tile := [(0, { thr := [(1, { run := { ts := .running, task := some tk } })] })]
    let c := { (deciding [(0, 2049), (1, 2276), (2, 55304)] false arrive).modCluster 0 (fun k => { k with budget := [(0, b)] }) with tiles := busy }
    let e := { deciding [(0, 2049), (1, 51200)] false arrive with tiles := busy, regions := [(0, { clusters := [0], swapN := 1 })] }
    (∃ d, decideBy (p.dropEvent 0 arrive) 0 arrive = .ended d ∧ d.picks = [⟨2, rec_, 0, 1, 0⟩] ∧ d.evicts = [] ∧ d.charges = [] ∧ d.scratch = []) ∧
    (p.dropEvent 0 arrive).choose 0 rec_.tr false = some (1, 0) ∧
    (∃ d, decideBy (c.dropEvent 0 arrive) 0 arrive = .ended d ∧ d.picks = [] ∧ d.evicts = [] ∧ d.scratch = [] ∧ d.charges = [(1, 100)]) ∧
    policyIdle (c.dropEvent 0 arrive) (tileIn 0 (1 / 2)) (1 % 2) = false ∧ (c.dropEvent 0 arrive).taskAt (tileIn 0 (1 / 2)) (1 % 2) = some tk ∧
    budgetIndex (c.cluster 0) (recRegion tk.tr.dw2) = some 0 ∧ (c.cluster 0).budget.look 0 0 = b ∧ c.nextEvent 0 0 = some arrive ∧
    (∃ d, decideBy (e.dropEvent 0 arrive) 0 arrive = .ended d ∧ d.picks = [] ∧ d.charges = [] ∧ d.scratch = [] ∧ d.evicts = [1]) ∧
    tileIn 0 (1 / 2) = 0 ∧ (e.thread 0 1).run.ts = .running ∧ (e.thread 0 1).run.gather.role = .solo ∧
    (e.thread 0 1).run.npd = 0 ∧ (e.thread 0 1).run.stop = {} ∧ (e.thread 0 1).run.due = [] ∧
    (e.thread 0 1).run.dbg.halted = false ∧ e.midway 0 1 = false ∧ e.freeSlots (clusterOf 0) ≠ [] ∧ e.nextEvent 0 0 = some arrive := by
  refine ⟨⟨_, rfl, by decide, by decide, by decide, by decide⟩, by decide, ⟨_, rfl, by decide, by decide, by decide, by decide⟩, by decide, by decide,
    by decide, by decide, by decide, ⟨_, rfl, by decide, by decide, by decide, by decide⟩, by decide, by decide, by decide, by decide, by decide, by decide,
    by decide, by decide, by decide, by decide⟩

/-- A region of cluster 0 whose commit of slot 1 is pending until `T`. -/
def committing (T now : Nat) (k : Cluster) : State :=
  { base 0 with clusters := [(0, k)], regions := [(0, { clusters := [0], commitPend := true, commitSlot := 1, commitT := T })], now := now }
theorem witness_RecipesAreCommitted :
    (let s : State := { base 0 with clusters := [(0, { timerCfg := 10 })], now := 1024 }
     (s.cluster 0).timerCfg ≠ 0 ∧ (s.cluster 0).timerLast < s.now / 2 ^ 10 * 2 ^ 10) ∧
    (let tk : TaskInfo := ⟨plainRec 0, 0, 0, 0⟩
     let s : State := { at_ 0 {} { ts := .running, task := some tk } {} with clusters := [(0, { taskSlice := 100 })], now := 100 }
     s.me.run.task = some tk ∧ (s.cluster 0).taskSlice ≠ 0 ∧ tk.slices < (s.now - tk.begun) / (s.cluster 0).taskSlice ∧
       s.me.run.ts.atRest = false) ∧
    ((base 0).region 0).commitPend = false ∧ 256 % 256 = 0 % 256 ∧ 1 % 256 ≠ 0 % 256 ∧ (committing 8192 8191 {}).now < ((committing 8192 8191 {}).region 0).commitT ∧
    ((committing 8192 0 {}).cluster 0).prepAck = false ∧ ((committing 8192 0 {}).cluster 0).recipeAct % 2 ≠ 1 ∧
    ((committing 8192 0 { recipeAct := 1 }).cluster 0).recipeAct % 2 = 1 ∧
    (committing 8192 7680 {}).now + 512 ≤ ((committing 8192 7680 {}).region 0).commitT ∧
    ((committing 8192 0 { prepAck := true, prepared := some (1, 8192) }).cluster 0).prepared ≠ none ∧
    ((committing 8192 0 {}).cluster 0).prepared = none ∧ 8192 ≤ (committing 8192 8192 { prepared := some (1, 8192) }).now := by decide
theorem witness_RecipesAreCommitted_image : imageValid (({} : Cluster).imgWord 1) (({} : Cluster).entry 1) = true := by decide

def dead0 (k : Cluster) : State := { withTile { c := { dead := true } } with clusters := [(0, k)] }
theorem witness_FaultsAreResolved : let s := base 1
    s.me.run.ts = .running ∧ s.me.run.npd = 0 ∧ s.midway 0 1 = false ∧ s.me.run.dbg.halted = false ∧ s.me.run.clear ∧
    (at_ 0 {} { ts := .running, stop := { leader := true } } {}).owesWords 0 = false ∧ ((base 0).cluster 0).queues = [] ∧
    ({ ({ island := true } : StopReq) with island := false, fault := false, leader := false } : StopReq) = {} ∧
    (at_ 1 {} { ts := .stopped, heldTs := .running } {}).me.run.heldTs = .running ∧ (s.myTile.c.reps.look 1 {}).v = false ∧
    ((at_ 1 {} { ts := .stopped } { c := { reps := [(1, { v := true })] } }).myTile.c.reps.look 1 {}).v = true ∧ isTileHome 0 = true ∧
    ((dead0 {}).tile 0).c.dead = true ∧ ((dead0 {}).tile 0).c.hole = false ∧ ((dead0 {}).cluster (clusterOf 0)).spareRow = none ∧
    (dead0 {}).movedTiles 0 = [0] ∧ ((dead0 {}).cluster 0).spillN = 0 ∧ ((dead0 { spareRow := some 3 }).cluster (clusterOf 0)).spareRow ≠ none ∧
    (s.tile 0).c.dead = false ∧ (16383 : Nat) < 16384 := by decide

def ctx (q : Region) (now : Nat) : State := { base 0 with clusters := [(0, {})], regions := [(0, { q with clusters := [0] })], now := now }
theorem witness_ContextsRunInSlices :
    ((ctx { ten := 3 } 0).region 0).ten = 3 ∧ ((ctx { ten := 3 } 0).region 0).busy = false ∧ (ctx { ten := 3 } 0).regionTiles 0 = [0] ∧
    ((ctx { ten := 3 } 0).thread 0 1).run.clear ∧ ((ctx { ten := 3 } 0).thread 0 0).run.clear ∧ (ctx { ten := 3 } 0).midway 0 0 = false ∧
    ((ctx { ten := 3, busy := true } 0).region 0).busy = true ∧ ((ctx { ten := 2, saved := some {} } 0).region 0).saved ≠ none ∧
    (let q := ctx { ten := 3, sliceLen := 100, grant := 60, sliceStart := 40 } 100
     (q.region 0).sliceLen ≠ 0 ∧ (q.region 0).sliceStart + (q.region 0).grant ≤ q.now) ∧
    (ctx { ten := 3, sliceLen := 100, grant := 60, sliceStart := 40 } 99).now < 100 ∧
    (let d : State := { ctx { ten := 4 } 0 with tiles := [(0, { thr := [(0, { run := { ts := .stopped } })] })] }
     d.tilesDrained 0 = true ∧ d.netDrained 0 = true ∧ d.termDrained 0 = true) ∧ (ctx { ten := 4 } 0).tilesDrained 0 = false ∧
    (let u (len debt : Nat) := ctx { ten := 1, sliceLen := len, debt := debt, saved := some {} } 0
     ((u 100 99).region 0).debt < ((u 100 99).region 0).sliceLen ∧ (u 100 99).clustersFree 0 = true ∧ ((u 100 99).region 0).saved = some {} ∧
     ((u 100 100).region 0).sliceLen ≤ ((u 100 100).region 0).debt) ∧ ((ctx {} 0).wafer (0 / 256)).life ≠ .secured ∧
    (let f (n : Nat) : State := { ctx { ten := 4 } 100000 with
       tiles := [(16, { rt := { bufs := [(0, [{ msg 67108864 0 2 1 (.stream []) with left := some n }])] } })] }
     (∃ m ∈ (f 0).flying, ofRegion 0 m = true ∧ m.vc ≤ 11 ∧ ∃ n, m.left = some n ∧ n + 100000 ≤ (f 0).now)) ∧
    (ctx { ten := 4 } 0).areaClaimed 0 = false ∧
    (∀ b, ((ctx { ten := 2, saved := some {}, endAfterLoad := b } 0).region 0).endAfterLoad = b) := by
  refine ⟨by decide, by decide, by decide, by decide, by decide, by decide, by decide, by decide, by decide, by decide, by decide, by decide,
    by decide, by decide, ⟨{ msg 67108864 0 2 1 (.stream []) with left := some 0 }, by decide, by decide, by decide, 0, rfl, by decide⟩, by decide, by decide⟩

theorem witness_SectionsAndEvictions :
    (let s (t : Nat) := at_ 1 {} { ts := .running, npd := 1, secTime := t } {}
     0 < (s 0).me.run.npd ∧ (s 0).midway 0 1 = false ∧ (s 0).me.run.npOver = false ∧ ((s 50001).region 0).npLimit < (s 50001).me.run.secTime ∧
     ((s 0).region 0).npovr < 4294967295 ∧ (s 0).regionOf 0 = 0 ∧ 4 * ((s 200000).region 0).npLimit ≤ (s 200000).me.run.secTime ∧
     (s 199999).me.run.secTime < 4 * ((s 199999).region 0).npLimit) ∧
    (let tk : TaskInfo := ⟨{ plainRec 0 with frame := 7 }, 0, 0, 0⟩
     let s : State := { at_ 1 {} { ts := .stopped, task := some tk, stop := { evict := true } } {} with regions := [(0, { swapN := 2 })] }
     s.me.run.task = some tk ∧ s.me.run.stop.evict = true ∧ s.evictReady 0 1 = true ∧ s.freeSlots 0 = [0, 1] ∧ (s.cluster 0).queue 0 = [] ∧ s.slotClaimed 0 0 0 = false ∧ (0 : Nat) < 65536) := by decide
/-! Vectors and the matrix unit -/

/-- t0 of a tile whose wide units are awake. -/
def vec (l : List (Nat × Nat)) : State := at_ 0 (regs l) going awake
theorem witness_VectorOpsActOnActiveElements : (vec []).focus.thread = 0 ∧ (vec []).warm (vec []).focus.tile false = true ∧
    (vec []).settled true ∧ active ((vec []).pN 0) 4 15 = true ∧ active ((vec []).pN 1) 4 0 = false := by
  simp only [State.settled]; decide
theorem witness_VectorResultsOfOtherShapes : (vec []).focus.thread = 0 ∧ (vec []).warm (vec []).focus.tile false = true ∧
    (vec []).settled true := by simp only [State.settled]; decide
/-- A tile alone, and a leader with one attached member that has executed all before. -/
theorem witness_VectorOpsAcrossElements : (vec []).settled true ∧ (vec []).warm 0 false = true ∧ (vec []).me.run.gather = {} ∧
    (let m (r : Role) (k : Nat) : Run := { ts := .running, gather := { role := r, index := k, size := 2, leader := 0 } }
     let s : State := { tiles := [(0, { awake with thr := [(0, ⟨{}, m .leader 0⟩)] }), (1, { awake with thr := [(0, ⟨{}, m .attached 1⟩)] })], focus := ⟨0, 0, 0⟩ }
     s.me.run.gather.role = .leader ∧ s.settled true ∧ s.participants (.pcount ⟨false, 0, 0, 0, 5⟩) = some [0, 1] ∧
     ∀ m ∈ [0, 1], s.warm m false = true ∧ (s.thread m 0).run.pend = []) := by
  simp only [State.settled]; decide
/-- The first and the last element of a vector of the scratchpad's last 64 bytes, in reach; then element 0 misaligned. -/
theorem witness_VectorMemoryOnOwnScratchpad :
    let s := vec [(5, own + 131072 - 64), (6, own + 2)]
    let o : CV := ⟨false, 2, 0, 0, 5, 1⟩
    s.ownBytes (unitAddr o s 0) 4 ∧ s.ownBytes (unitAddr o s 15) 4 ∧ s.ownFree (addrOff (unitAddr o s 15)) 4 true ∧
    poisonedAt s 0 (addrOff (unitAddr o s 15)) 4 = false ∧ s.me.held = false ∧ s.settled false ∧ s.canTrap ∧
    addrOff (unitAddr o s 0) + 4 ≤ addrOff (unitAddr o s 1) ∧
    firstPass s 4 .vload (activeAddrs ⟨false, 2, 0, 0, 6, 1⟩ s (unitAddr ⟨false, 2, 0, 0, 6, 1⟩ s)) = some (0x04, own + 2) := by
  simp only [ownBytes_iff, ownFree_iff, State.settled, canTrap_iff]; decide

/-- A vector of tile 1's scratchpad; one without a translation, and one whose translation is still to be asked for. -/
theorem witness_VectorMemoryElsewhere :
    let s := vec [(5, own + 1073741824)]
    let o : CV := ⟨false, 2, 0, 0, 5, 1⟩
    let z : CV := ⟨false, 2, 0, 0, 0, 1⟩
    let x := { s with regions := [(0, { xlatMode := 10 })] }
    (∃ l, vCheck s 4 .vload (activeAddrs o s (unitAddr o s)) = .ok l ∧ l ≠ [] ∧ ∀ e ∈ l, e.2.2.home ≠ 0) ∧ s.roomToIssue 0 0 = true ∧
    s.undisturbed ∧ x.undisturbed ∧ vCheck s 4 .vstore (activeAddrs z s (unitAddr z s)) = .trap 0x18 1 0 ∧
    vCheck x 4 .vload (activeAddrs z x (unitAddr z x)) = .walk 0 := by
  simp only [State.undisturbed]; exact ⟨⟨_, rfl, by decide, by decide⟩, by decide, by decide, by decide, by decide, by decide⟩

def mm (rs2 rs1 : Nat) : MM := ⟨false, 3, rs2, rs1, false, false, true, 0⟩
/-- A convolution record of sixteen ones, the rest zero. -/
def oneRec : Memory := [0, 2, 4, 6, 7, 8, 9, 10, 11, 16, 18].foldl (fun m k => m.write (padKey 0 k) 1) []
def entry (i : Instr) : MatEntry := ⟨0, 0, i, 0, 0, 0, 0, 0, 64, 64, 0, 0, [], 0, [], [], []⟩
def queued (l : List MatEntry) : State := { vec [(5, own), (6, own + 131072 - 1024)] with tiles := [(0, { awake with
  thr := [(0, ⟨{ regs [(5, own), (6, own + 131072 - 1024)] with mstrideA := 64, mstrideB := 0 }, going⟩)], e := { mq := l } })], mem := oneRec }
/-- The first and the last row of each operand; a record; the last places for the transfers. -/
theorem witness_MatrixEntriesQueue : let s := queued []
    let full := queued [entry (.maccZero ⟨false, 0, 0, 0⟩), entry (.maccZero ⟨false, 0, 0, 0⟩), entry (.maccZero ⟨false, 0, 0, 0⟩),
      entry (.maccZero ⟨false, 0, 0, 0⟩)]
    s.isGang (mm 6 5) = false ∧ s.warm 0 false = true ∧ s.warm 0 true = true ∧ s.mqReady 2 0 = true ∧ s.mqReady 1 0 = true ∧ s.mqReady 0 0 = true ∧ recordWaits (mm 5 5) s = false ∧
    full.me.run.clear ∧ s.settled true ∧ s.canTrap ∧ s.undisturbed ∧
    4 ≤ full.myTile.e.mq.length ∧ s.prefixOf 0 = own ∧ own + 15 * 64 + rowBytes (mshape 0).fa 128 ≤ own + 131072 ∧
    productCheck 0 (mm 5 5) true s = none ∧ productCheck 7 (mm 5 5) true s = none ∧ productCheck 0 (mm 5 1) true s = some (0x05, 0) ∧
    productCheck 0 (mm 5 5) true (vec [(5, own + 2)]) = some (0x04, own + 2) ∧
    s.getXn 5 % 8 = 0 ∧ (convRec (recordAt (mm 5 5) s)).ok = true ∧ convCheck (mm 5 5) true (recordAt (mm 5 5) s) s = none ∧
    (convRec (recordAt (mm 5 5) (vec [(5, own)]))).ok = false ∧ s.getXn 6 + 1024 ≤ own + 131072 ∧ ¬(s.getXn 6 + 2048 ≤ own + 131072) ∧
    s.getXn 6 % 64 = 0 ∧ (vec [(5, own + 32)]).getXn 5 % 64 ≠ 0 ∧ s.me.run.livePend.length < 8 ∧ s.me.run.rep = none := by
  simp only [State.settled, State.undisturbed, canTrap_iff]; decide
/-- A leader at a product with G = 1, and one attached member that waits there. -/
theorem witness_MatrixEntriesQueue_gang :
    let m (r : Role) (k : Nat) : Run := { ts := .running, gather := { role := r, index := k, size := 2, leader := 0 } }
    let w : Run := { m .attached 1 with ts := .sleeping, phase := inGsync, wait := some ⟨3, 0, 0, 0⟩ }
    let s : State := { tiles := [(0, { awake with thr := [(0, ⟨regs [(5, own)], m .leader 0⟩)] }),
      (1, { awake with thr := [(0, ⟨regs [(5, 0x0404000040000000)], w⟩)] })], focus := ⟨0, 0, 0⟩, mem := oneRec }
    let o : MM := ⟨false, 3, 5, 5, false, true, true, 0⟩
    s.isGang o = true ∧ s.me.run.gather.role = .leader ∧ s.attachedOf 0 = [1] ∧ s.gangReady 0 [0, 1] = true ∧ s.me.run.gather.leader = 0 ∧
    recordWaits o s = false ∧
    (∀ m ∈ [0, 1], s.warm m false = true ∧ s.warm m true = true ∧ s.mqReady 2 m = true ∧ (s.thread m 0).run.pend = []) ∧
    s.prefixOf 1 = 0x0404000040000000 ∧ (∀ m ∈ [0, 1], productCheck 0 o (m == 0) (s.lookAt m 0) = none) ∧
    ∀ m ∈ [0, 1], convCheck o (m == 0) (recordAt o s) (s.lookAt m 0) = none := by
  decide

/-- One entry of each kind at the head of the queue; a product that has begun, at its first row and its last. -/
theorem witness_MatrixUnitRuns : let o : CR := ⟨false, 0, 0, 0⟩
    (∀ i ∈ [Instr.maccZero o, .maccSt o, .maccStp o, .maccLdp o, .maccRow o, .mmaI8 (mm 0 0), .mconv (mm 0 0)],
      let s := queued [entry i]
      s.myTile.e.mq = [entry i] ∧ s.me.run.ts ≠ .stopped ∧ s.me.run.due = [] ∧ (entry i).gang = [] ∧ s.myTile.e.mprogV = false ∧ windowFirst s 0 (entry i) = false ∧
      spanClaimed s 0 ((entry i).reads ++ (entry i).writes) = false ∧ spanPoison s 0 (entry i).reads = none ∧ (entry i).a + 2048 ≤ 131072) ∧
    (∀ i ∈ [0, 15], let e := { entry (.mmaE4e4 (mm 0 0)) with sa := 8192 }
      let s : State := { queued [] with tiles := [(0, { awake with thr := [(0, ⟨{}, going⟩)], e := { mq := [e], mprogV := true, mprogRows := i } })] }
      mParts e = some (mshape 0, mm 0 0, 128) ∧ s.myTile.e.mprogV = true ∧ s.myTile.e.mprogRows < 16 ∧ spanClaimed s 0 (rowReads e true i) = false ∧
      spanPoison s 0 (rowReads e true i) = none ∧ (aRow s 0 e i).isSome ∧ s.me.run.ts = .running ∧ s.midway 0 0 = false) ∧
    isTileHome 0 = true := by decide

/-- A transfer and a row whose bytes a claim covers, and whose bytes are poisoned. -/
theorem witness_MatrixUnitRuns_held :
    let x := { entry (.maccLdp ⟨false, 0, 0, 0⟩) with reads := [(0, 2048)] }
    let e := { entry (.mmaE4e4 (mm 0 0)) with sa := 8192 }
    let st (p : List (Nat × Bool)) (c : List Claim) (e : MatEntry) (v : Bool) : State := { queued [] with
      tiles := [(0, { awake with thr := [(0, ⟨{}, going⟩)], e := { mq := [e], mprogV := v }, c := { poison := p } })], homes := [(0, { claims := c })] }
    mParts x = none ∧ mParts e = some (mshape 0, mm 0 0, 128) ∧
    spanClaimed (st [] [⟨0, 1, 0⟩] x false) 0 (x.reads ++ x.writes) = true ∧ spanPoison (st [(0, true)] [] x false) 0 x.reads ≠ none ∧
    spanClaimed (st [(0, true)] [] x false) 0 (x.reads ++ x.writes) = false ∧
    spanClaimed (st [] [⟨0, 1, 0⟩] e true) 0 (rowReads e true 0) = true ∧ spanPoison (st [(0, true)] [] e true) 0 (rowReads e true 0) ≠ none ∧
    spanClaimed (st [(0, true)] [] e true) 0 (rowReads e true 0) = false ∧ (st [(0, true)] [] e true).midway 0 0 = false := by decide

/-- An entry of the joint array at the head of both queues: not yet begun, at its first row and at its last. -/
theorem witness_MatrixUnitRuns_gang : ∀ b ∈ [false, true], ∀ i ∈ [0, 15],
    let m (r : Role) (k : Nat) : Run := { ts := .running, gather := { role := r, index := k, size := 2, leader := 0 } }
    let e := { entry (.mmaE4e4 ⟨false, 3, 0, 0, false, true, true, 0⟩) with sa := 8192, gang := [0, 1] }
    let t (r : Role) (k : Nat) : Tile := { awake with thr := [(0, ⟨{}, m r k⟩)], e := { mq := [e], mprogV := b, mprogRows := i } }
    let s : State := { tiles := [(0, t .leader 0), (1, t .attached 1)], focus := ⟨0, 0, 0⟩ }
    s.myTile.e.mq.head? = some e ∧ [0, 1].head? = some s.focus.tile ∧ [0, 1].Nodup ∧ gangAtHead s e = true ∧
    mParts e = some (mshape 0, ⟨false, 3, 0, 0, false, true, true, 0⟩, 128) ∧ s.myTile.e.mprogV = b ∧ s.myTile.e.mprogRows = i ∧
    (∀ m ∈ [0, 1], windowFirst s m e = false ∧ spanClaimed s m (rowReads e (m == 0) i) = false ∧ spanPoison s m (rowReads e (m == 0) i) = none) ∧
    (aRow s 0 e i).isSome := by decide
/-! Copies, landing packets, the wafer -/

/-- Eight bytes from the scratchpad's start to its last line; the same to window 8 and to a misaligned place. -/
def w2of (n : Nat) : Nat := n + 2 ^ 16 + 2 ^ 32
def copyRegs (dst : Nat) : Regs := regs [(4, own), (5, own + 131072 - dst), (6, w2of 8), (7, 0)]
def cpy (st : CopyState) (cur w3 : Nat) : CopyEntry :=
  ⟨0, 0, 0, 0, own, own + 131008, w2of 8, w3, 0, 0, 0, 0, 0, 0, .none, 0, cur, st, 5, [], 0⟩
def unit_ (failed : Bool) (hid : Nat) : CopyUnit := ⟨3, 0, 0, 1, 67108928, 64, 8, 0, 0, [], 0, hid, false, failed, false⟩
theorem witness_CopyRequestsEnterTheFifo : let s := at_ 0 (copyRegs 64) going {}
    let o : CR := ⟨false, 0, 4, 0⟩
    let full := at_ 0 (copyRegs 64) going { e := { copies := List.replicate 8 (cpy .accepted 0 0) } }
    cqTrap o s = none ∧ s.myTile.e.copies.length < 8 ∧ s.heldOrder 0 0 clsW 0 = false ∧ s.settled true ∧ s.me.r.qwV = false ∧
    (let w (n : Nat) := at_ 0 { copyRegs 64 with qwV := true, weight := n } going {}
     (w 2).me.r.qwV = true ∧ 2 ≤ (w 2).me.r.weight ∧ (w (2 ^ 62)).me.r.weight < 2 ^ 63 ∧ (w 1).me.r.weight = 1 ∧ cqTrap o (w 2) = none) ∧
    cqTrap o full = none ∧ full.me.run.clear ∧ full.heldOrder 0 0 clsW 0 = false ∧ 8 ≤ full.myTile.e.copies.length ∧ cqTrap o (at_ 0 (copyRegs 4) going {}) = some (0x07, own + 131072) ∧ s.canTrap ∧
    s.me.run.livePend.length < 8 ∧ s.me.run.rep = none ∧ (∀ c ∈ s.myTile.e.copies, s.myTile.e.copySerial ≤ c.serial) ∧ s.myTile.e.units = [] ∧
    (let q : State := at_ 0 {} going { e := { copies := [cpy .accepted 0 0], copySerial := 1 } }
     ¬(∀ c ∈ q.myTile.e.copies, q.myTile.e.copySerial ≤ c.serial)) ∧ s.savedCopies s.focus.tile = [] ∧
    (let w : Swapped := ⟨0, 1, {}, {}, [], false, 0, 0, [cpy .accepted 0 0], [], []⟩
     let q : State := { at_ 0 {} going { e := { copySerial := 1 } } with regions := [(0, { swaps := [(0, w)] })] }
     ¬(∀ c ∈ q.savedCopies q.focus.tile, q.myTile.e.copySerial ≤ c.serial)) := by
  simp only [State.settled, canTrap_iff]; decide
theorem witness_CopyEngineRuns :
    let e (l : List CopyEntry) (u : List CopyUnit) : Tile := { e := { copies := l, units := u } }
    (∀ u ∈ [unit_ false 0, unit_ false 3, unit_ true 0], (withTile (e [] [u])).myTile.e.units.find? ((withTile (e [] [u])).unitReady 0) = some u ∧
      u.task = false ∧ (withTile (e [] [u])).passes 0 u.dstName u.home) ∧
    (let c := cpy .accepted 0 0
     let s := withTile (e [c] [])
     s.myTile.e.units.find? (s.unitReady 0) = none ∧
     s.myTile.e.copies.find? (fun c => (c.st == .accepted || c.st == .issuing) && !s.copyHeld 0 c.thread) = some c ∧ c.cur < cqCount c.w2 ∧
     c.unitLen = 8 ∧ firstOpen s 0 c ((c.dst 0, c.es, AccKind.amo) :: (srcRuns c 8).map (fun x => (x.2.1, x.2.2, AccKind.probe))) = none) ∧
    (let c := { cpy .accepted 0 0 with w0 := 3 * 2 ^ 36 * 64 }
     let s := withTile (e [c] [])
     firstOpen s 0 c ((c.dst 0, c.es, AccKind.amo) :: (srcRuns c 8).map (fun x => (x.2.1, x.2.2, AccKind.probe))) =
       some (3 * 2 ^ 36 * 64, 8, .probe, .miss 1) ∧ s.midway 0 c.thread = false ∧ isTileHome 0 = true) ∧
    (∀ w3 ∈ [0, 67108928 * 16384], let c := cpy .landing 8 w3
      (withTile (e [c] [])).myTile.e.copies = [c] ∧ c.st = .landing ∧ cqCount c.w2 ≤ c.cur ∧ (cqName c.w3 = 0 ↔ w3 = 0)) ∧
    (let c := cpy .increment 8 0
     (withTile (e [c] [])).increments 0 5 = some c) := by
  simp only [passes_iff]; decide

/-- t2 in a handler: the last doubleword of its buffer and one beyond; formats of `lcvt` good, bad and too long. -/
def packet : Packet := ⟨131008, 64, 0, 0, 1, 67108928, 1, 0, 3, 0, 0⟩
def handler (l : List (Nat × Nat)) (buf cl : Nat) : State := at_ 2 (regs l) going { e := { landNow := some packet, landBuf := buf, landCl := cl } }
theorem witness_LandingHandlers : let s := handler [(5, 504), (6, 512), (7, 4)] 0 64
    s.myTile.e.landNow = some packet ∧ s.settled true ∧ s.getXn 5 % 8 = 0 ∧ s.getXn 5 < 512 ∧ 512 ≤ s.getXn 6 ∧ s.getXn 7 % 8 ≠ 0 ∧ s.midway 0 2 = false ∧
    s.getXn 5 + 8 ≤ 512 ∧ 512 < s.getXn 6 + s.getXn 7 ∧ (zeroRun 0 0 0 513 ⟨0, 0, 0, 0⟩).code = 0 ∧ (zeroRun 0 8 0 513 ⟨0, 0, 0, 0⟩).code ≠ 0 ∧
    (64 * 8 % (landFmt 0).bits = 0 ∧ packedBytes (landFmt 1) (64 * 8 / (landFmt 0).bits) ≤ 512) ∧
    512 < packedBytes (landFmt 0) (512 * 8 / (landFmt 7).bits) ∧ 10 < s.getXn 5 ∧ isTileHome 0 = true ∧ packet.addr + 64 ≤ 131072 := by
  simp only [State.settled]; decide
theorem witness_LandingHandlers_packets :
    let body : Payload := .packet 131008 64 0 0 1
    let m := { msg 67108864 0 13 5 body with handler := 3 }
    let s (n : Nat) := inboxOf 0 [m] (withTile { e := { landQ := List.replicate n packet } })
    ((s 3).home 0).inbox = [m] ∧ m.body = body ∧ claimWaits [m] m.srcHome 1 = false ∧ (s 3).myTile.e.landQ.length < 4 ∧ 4 ≤ (s 4).myTile.e.landQ.length ∧
    (let q (v : Nat) : State := { withTile { e := { landQ := [packet] } } with mem := word8 (padKey 0 24) v, wafers := [(0, { locked := true })] }
     (q 0).myTile.e.landQ = [packet] ∧ (q 0).myTile.e.landNow = none ∧ ((q 0).thread 0 2).run.ts = .idle ∧ (q 0).landHeld 0 = false ∧
     (q 0).mem.readNat (padKey 0 ((q 0).myTile.r.lhtbase * 512 + 8 * packet.hid)) 8 < 2 ^ 63 ∧
     (q (2 ^ 63 + 131068)).mem.readNat (padKey 0 24) 8 = 2 ^ 63 + 131068 ∧ (q (2 ^ 63 + 131072)).mem.readNat (padKey 0 24) 8 = 2 ^ 63 + 131072) ∧
    (let q (ten : Nat) (l : Bool) : State := { withTile { c := { landStop := l }, e := { landQ := [packet] } } with
       regions := [(0, { ten := ten })], wafers := [(0, { locked := true })] }
     ((q 6 false).region ((q 6 false).regionOf 0)).ten = ctxTerminating ∧ (q 6 false).myTile.e.landNow = none ∧
     ((q 6 false).thread 0 2).run.ts = .idle ∧ (q 3 true).landHeld 0 = true ∧ ((q 3 true).region ((q 3 true).regionOf 0)).ten ≠ ctxTerminating) ∧
    (at_ 2 { instret := 4096 } going {}).me.r.instret = 4096 ∧ (at_ 2 { instret := 4095 } going {}).me.r.instret < 4096 := by decide

/-- A table in edge memory with one leaf, at level 3; a region without translation; a shootdown in its course. -/
def mapped (walks : List Walk) (copies : List CopyEntry) : State :=
  { at_ 0 {} going { e := { walks := walks, copies := copies } } with
    regions := [(0, { xlatMode := 10 })], mem := Memory.writeNat (Memory.writeNat [] (edgeKey 0 0) 8 1025) (edgeKey 0 4096) 8 215 }
theorem witness_TranslationsAndShootdowns :
    let w (h : Nat) : Walk := ⟨h, 0, 8, .write, 8⟩
    let x : XlEntry := ⟨0, 0, 0, 3, 0, true, true⟩
    walkFor (mapped [] []) 0 8 .write = .entry x ∧ walkResult (mapped [w 0] []) 0 (w 0) = .entry x ∧ walkResult (base 0) 0 (w 3) = .miss 1 ∧
    walkResult { mapped [w 0] [] with homes := [(67108864, { claims := [⟨0, 0, 0⟩] })] } 0 (w 0) = .busy ∧ (mapped [w 0] []).myTile.e.walks[0]? = some (w 0) ∧
    (mapped [w 3] [cpy .issuing 0 0]).myTile.e.walks[0]? = some (w 3) ∧ (cpy .issuing 0 0).serial = (w 3).entry ∧
    (mapped [w 3] [cpy .issuing 0 0]).entryOf 0 0 = some (cpy .issuing 0 0) ∧
    (mapped [w 3] [cpy .issuing 0 0]).midway 0 0 = false ∧
    (let s : State := { at_ 0 (regs [(5, 8)]) going { e := { walks := [w 0] } } with mem := code 0x0002B303 }
     s.myTile.e.walks[0]? = some (w 0) ∧ walkResult s 0 (w 0) = .miss 1 ∧ s.myTile.e.unsent = [] ∧
     ∃ s2, issue (({ s with tiles := (s.modMyTile (fun t => t.modEng (fun e => { e with walks := [] }))).tiles } : State).lookAt 0 0) = .go s2 (.load .ld 6 5 0) ∧
       s2.focus.tile = 0 ∧ s2.focus.thread = 0 ∧ s2.midway 0 0 = false ∧ s2.me.run.ts = .running) := by
  exact ⟨by decide, by decide, by decide, by decide, by decide, by decide, by decide, by decide, by decide, by decide, by decide, by decide,
    _, rfl, rfl, rfl, rfl, rfl⟩
theorem witness_TranslationsAndShootdowns_inv :
    let i (b : Bool) (l : List Nat) : State := { base 0 with islands := [(0, { invBusy := b, invWait := l, invReq := some (1, 2, 3, 4) })] }
    65536 / 65536 % 2 = 1 ∧ ((i false []).island 0).invBusy = false ∧ ((i true [0]).island 0).invBusy = true ∧
    ((i true [0]).island 0).invReq = some (1, 2, 3, 4) ∧ ((i true [0]).island 0).invWait.contains 0 = true ∧
    ((i true [0]).island 0).invTold.contains 0 = false ∧ ((i true [0]).tile 0).e.units = [] ∧ outsDrained (i true [0]) 0 = true ∧
    ((i true [0]).island 0).invWait.contains 5 = false ∧ ((i true []).island 0).invWait = [] ∧ ((i true [0]).island 0).invWait ≠ [] := by decide

/-- The last line of a chunk; the last byte of a module, and one beyond. -/
theorem witness_SlicesMoveAndHostsReach : let e := 67108864
    let f : Forward := { v := true, chunk := 0, target := 2097152, moved := 32767 }
    let s : State := { base 0 with homes := [(e, { forwards := [(63, f)] })], wafers := [(0, { hostWin := [(8, 63999999992)] })] }
    let v : State := { base 0 with islands := [(0, { vfBind := [(63, 9223372036854775808 + 255)] })], regions := [(255, { hostWin := [(0, 64)] })] }
    isEdgeHome e = true ∧ isEdgeHome 0 = false ∧ (63 : Nat) < 64 ∧ (s.home e).forwards.find 63 = some f ∧ s.claimed e (64 * 32767) 64 = false ∧
    s.claimed (edgeHome (homeWafer e) 0) (2097152 + 64 * 32767) 64 = false ∧
    ({ base 0 with homes := [(e, { forwards := [(63, f)], claims := [⟨32767, 0, 0⟩] })] } : State).claimed e (64 * 32767) 64 = true ∧
    edgeExists 63999999999 1 = true ∧ edgeExists 64000000000 1 = false ∧ edgeClaimed s 0 63999999999 1 = false ∧
    63999999999 / 64 = (63999999999 + 1 - 1) / 64 ∧ edgeSpot s 0 63999999999 = (e, 63999999999) ∧
    edgeClaimed ({ base 0 with homes := [(e, { claims := [⟨0, 0, 0⟩] })] } : State) 0 8 8 = true ∧
    (∃ w ∈ s.hostRanges 0 none, w.1 ≤ 63999999999 ∧ 63999999999 + 1 ≤ w.1 + w.2) ∧ ¬(∃ w ∈ s.hostRanges 0 none, w.1 ≤ 7 ∧ 7 + 1 ≤ w.1 + w.2) ∧
    (∃ w ∈ v.hostRanges 0 (some 63), w.1 ≤ 0 ∧ 0 + 64 ≤ w.1 + w.2) ∧ v.hostRanges 0 (some 62) = [] := by decide

theorem witness_ClocksRailsAndPasses :
    let island (b : Bool) : State := { base 0 with islands := [(0, { railBusy := b, railNext := 650 })] }
    let tile (c : TileCtl) := withTile { c := c }
    600 % 2048 % 25 = 0 ∧ 1500 % 2048 % 25 = 0 ∧ 1500 < 1525 % 2048 ∧ 601 % 25 ≠ 0 ∧ 650 % 1024 = 650 ∧ 850 % 1024 = 850 ∧ 649 % 1024 < 650 ∧
    850 < 851 % 1024 ∧ ((island false).island 0).railBusy = false ∧ ((island true).island 0).railBusy = true ∧
    (tile {}).myTile.c.droopThr ≠ 0 ∧ (tile { droopThr := 0 }).myTile.c.droopThr = 0 ∧
    (tile {}).myTile.c.proofing = false ∧
    (let s : State := { base 0 with islands := [(0, { proofEn := true })], now := 600000000000 }
     s.passMayStart 0 = true ∧ s.myTile.c.proofDue = false) ∧ ({ tile { proofDue := true } with tiles := [(0, { c := { proofDue := true } })] } : State).passReady 0 = true ∧
    (tile { proofing := true }).myTile.c.proofing = true ∧ (∀ p ∈ (base 0).regions, (base 0).holdsNames 0 p.1 = true → p.2.ten = 0) ∧
    (let s : State := { base 0 with regions := [(0, { ten := 3 })] }
     ∃ p ∈ s.regions, s.holdsNames 0 p.1 = true ∧ p.2.ten ≠ 0) ∧
    ((base 0).tile 0).c.dead = false ∧ ((base 0).tile 0).c.hole = false := by decide
/-- A tile that its neighbour to the east clocks, and loses that source with another entry in reach and without; an island's choice that has
a clock and one beyond the grid. -/
theorem witness_ClocksRailsAndPasses_source :
    let s (l : List (Nat × Nat)) : State := { base 0 with wafers := [(0, { locked := true, clkEntries := l })] }
    let port (s : State) := clockPort s.repeaterBad ((s.clockFeeds 0).filter (· != 0)) 0
    (s [(0, 3)]).clockSource 0 = (3, true) ∧ port ((s [(0, 3)]).stopSource 0) = none ∧
    (s [(1, 1)]).clockSource 0 = (1, false) ∧ (port ((s [(1, 1), (768, 2)]).stopSource 0)).isSome = true ∧
    (clockVia (s [(1, 1)]).repeaterBad ((s [(1, 1)]).clockFeeds 0) 0 1).isSome = true ∧
    clockVia (s [(1, 1)]).repeaterBad ((s [(1, 1)]).clockFeeds 0) 0 3 = none := by decide

theorem witness_ClocksRailsAndPasses_clear : (∀ m h, ((withTile {}).thread m h).run.clear) ∧
    ∀ q, ∀ x ∈ ((withTile { c := { proofing := true } }).cluster 0).queue q, x.spill = none := by
  exact ⟨fun m h => by cases m <;> cases h <;> exact ⟨rfl, rfl⟩, fun q x hx => by cases hx⟩

/-- The last doubleword of a scratchpad, under a claim and not; the last entries of the tables; the safe state. -/
theorem witness_RegistersOverTheSystemPath : let s := base 0
    2 ^ 64 - 1 < 2 ^ 64 ∧ (s.wafer 0).bootSafe = false ∧ islandSlot (clusterOf 0) = false ∧ (s.tile 0).c.hole = false ∧ isTileHome 0 = true ∧
    131064 + 8 ≤ 131072 ∧ s.claimed 0 131064 8 = false ∧
    s.staleName 0 (s.nameOf 0) = false ∧ s.staleName 0 (s.nameOf 0 + 67108864) = true ∧ 131071 % 1 = 0 ∧ 131071 + 1 ≤ 131072 ∧
    ({ s with homes := [(0, { claims := [⟨2047, 1, 0⟩] })] } : State).claimed 0 131064 8 = true ∧ s.policing 0 0 = 0 ∧ s.policing 255 0 = 0 ∧
    isEdgeHome 67108864 = true ∧ 2 ^ 63 - 1 < 2 ^ 63 ∧ (({ s with wafers := [(0, { bootSafe := true })] } : State).wafer (waferOf 0)).bootSafe = true ∧
    winEnd 1 < 0x100 + 8 ∧ winEnd 5 = 0x1FF8 + 8 ∧ (withTile { e := { mq := [entry (.maccZero ⟨false, 0, 0, 0⟩)] } }).myTile.e.mq ≠ [] := by
  decide

/-- An access of the own bytes that waits: behind an acquire, behind a queued matrix entry that reads and writes them, for room at the router, for what
`rl` orders before it; and one of a poisoned granule. -/
theorem witness_accesses_wait :
    let u (n : Nat) : Unsent := ⟨⟨0, 0, 0, 0, 13, 3, false, 0, 1, 0, 0, 0, 0, 0, .mem (engineReq .lr 0 8 0 n 0 false true), none, 0, 0, none⟩, 0, false, clsR⟩
    let held := at_ 0 {} { ts := .running, outs := [{ storeOut 0 with aq := true }] } {}
    let busy := at_ 0 {} going { e := { mq := [{ entry (.maccZero ⟨false, 0, 0, 0⟩) with reads := [(0, 8)], writes := [(0, 8)] }] } }
    let full := at_ 0 {} going { e := { unsent := (List.range 16).map u } }
    let bad := at_ 1 {} going { c := { poison := [(0, true)] } }
    held.me.held = true ∧ held.me.run.clear ∧ held.allDone = false ∧ held.switched = true ∧ lrAllowed own = true ∧ bad.canTrap ∧
    (∀ k ∈ [WinKind.load, .store, .atomic, .probe], target busy own 8 k = .place ⟨0, 0, 67108864⟩ ∧ mqConflict busy ⟨0, 0, 67108864⟩ 8 k.isWrite = true ∧
      target full own 8 k = .place ⟨0, 0, 67108864⟩ ∧ ownNow full 0 0 8 ⟨0, 0, 67108864⟩ (classOf own ⟨0, 0, 67108864⟩ k.cls) = false ∧
      full.roomToIssue 0 0 = false ∧ target bad own 8 k = .place ⟨0, 0, 67108864⟩) ∧
    busy.me.run.clear ∧ full.me.run.clear ∧ poisonedAt bad 0 0 8 = true := by
  simp only [canTrap_iff]; decide
/-! Islands, bring-up, debugging -/

/-- Tables of region 0 in edge memory: four levels of tables, with the page at 4096 pinned and the page at 8192 not mapped. -/
def tables : Memory := ([(0, 1025), (4096, 2049), (8192, 3073), (12288, 4097), (16392, 16599)] : List (Nat × Nat)).foldl
  (fun m x => Memory.writeNat m (edgeKey 0 x.1) 8 x.2) []
def tabled : State := { base 0 with regions := [(0, { xlatMode := 10, ten := 3 })], mem := tables }
def callMsg (a : List Nat) : Msg := msg 0 (islandHome 0) 15 9 (.syscall a 0)
/-- A call of t0 of tile 0 at its island, with a file open for reading and one for writing. -/
def called (a : List Nat) (files : Tab (Nat × Nat)) (nv : Tab NvmeQueue) : State :=
  { tabled with tiles := [(0, { thr := [(0, ⟨{}, { ts := .sleeping, phase := 1, wait := some ⟨6, 0, 0, 0⟩ }⟩)] })],
                homes := [(islandHome 0, { inbox := [callMsg a] })], regions := [(0, { xlatMode := 10, ten := 3, files := files })],
                islands := [(0, { nvme := nv })] }
theorem witness_SystemCallsAreServed :
    (∀ n ∈ [0, 1, 2, 3, 4, 5, 6, 7, 8, 9], let a := [1, 2, 0, 0, 0, 0, 0, n]
      ((called a [] []).home (called a [] []).callHome).inbox = [callMsg a] ∧ (callMsg a).body = .syscall a 0 ∧ (callMsg a).srcHome = 0 ∧
      (callMsg a).sthr = 0 ∧ (called a [] []).callerWaits (callMsg a) 1 = true ∧ a.getD 7 0 = n) ∧ waferOf 0 < 64 ∧ isTileHome 0 = true ∧ (callMsg []).region < 256 ∧ (called [] [] []).passes (islandHome 0) 67108864 0 ∧
    bufferBusy tabled 0 4096 1 .read = false ∧ bufferBusy tabled 0 4096 4096 .write = false ∧ bufferBusy tabled 0 8192 1 .read = false ∧
    regionPa tabled 0 4096 .read = some 65536 ∧ regionPa tabled 0 8192 .read = none ∧ [4096, 3].getD 1 0 = 3 ∧
    ((called [] [(7, (0, 0))] []).region 0).files.find 7 = some (0, 0) ∧ ((called [] [] []).region 0).files.find 7 = none ∧
    fileBuffer (called [] [(7, (0, 0))] []) 0 [7, 4096, 8] 1 .write = .inr [(65536, 8)] ∧ runsClaimed tabled 0 [(65536, 8)] = false ∧
    fileBuffer (called [] [(7, (1, 0))] []) 0 [7, 4096, 8] 1 .write = .inl (2 ^ 64 - 4) ∧
    fileBuffer (called [] [(7, (1, 0))] []) 0 [7, 4096, 4096] 0 .read = .inr [(65536, 4096)] ∧
    nvqArgsOk tabled 0 [1, 2, 4096, 4096, 8192] = true ∧ nvqArgsOk tabled 0 [1, 1025, 4096, 4096, 8192] = false ∧
    (List.range 256).find? (fun n => !(tabled.nvmeQ 0 n).opened) = some 0 ∧ leafSlot tabled 0 8192 4 0 = .slot 16400 ∧ leafSlot tabled 0 4096 4 0 = .slot 16392 ∧
    bytesNat (edgeRead tabled 0 16392 8) % 2 = 1 ∧ bytesNat (edgeRead tabled 0 16400 8) % 2 = 0 ∧ leafSlot tabled 0 (2 ^ 21) 4 0 = .none ∧
    leafSlot { tabled with mem := Memory.writeNat tables (edgeKey 0 12296) 8 215 } 0 (2 ^ 21) 4 0 = .mapped ∧
    pathPinned tabled 0 (2 ^ 45) 4096 = some true ∧ pathPinned tabled 0 (2 ^ 45) 8192 = some false ∧
    pathPinned { tabled with homes := [(67108864, { claims := [⟨0, 0, 0⟩] })] } 0 (2 ^ 45) 4096 = none ∧
    tabled.mem.readNat (edgeKey 0 16400) 8 % 2 = 0 ∧ ((called [] [] [(255, { opened := true })]).nvmeQ 0 255).opened = true ∧
    ((called [] [] [(255, { opened := true })]).nvmeQ 0 255).region = 0 ∧ (tabled.nvmeQ 0 0).opened = false ∧ (tabled.region 0).ten = 3 ∧
    (tabled.region 0).dbgEn = false := by
  simp only [passes_iff]; decide

/-- A queue of two entries with a flush (operation 0) and a wrong operation submitted, and commands at its controller. -/
def nvq (op : Nat) (k : NvmeQueue) : State :=
  { tabled with islands := [(0, { nvme := [(0, { k with opened := true, size := 2, sqVa := 4096, cqVa := 4608 })] })],
                mem := Memory.writeNat tabled.mem (edgeKey 0 65536) 8 op }
theorem witness_NvmeQueuesAndOxsorPaths :
    (let s := nvq 0 { sqTail := 1, cqSeen := 1 }
     let k := s.nvmeQ 0 0
     k.opened = true ∧ (k.sqTail + k.size - k.sqHead) % k.size = 1 ∧ bufferRuns s k.region (k.sqVa + 64 * k.sqHead) 64 .read = some [(65536, 64)] ∧
     bytesNat (readRuns s 0 [(65536, 64)]) % 256 = 0 ∧ bytesNat (readRuns s 0 [(65536, 64)]) / 2 ^ 32 % 2 ^ 32 = k.ns ∧
     bytesNat (readRuns (nvq 3 {}) 0 [(65536, 64)]) % 256 = 3 ∧ bytesNat (readRuns (nvq 2 {}) 0 [(65536, 64)]) % 256 = 2 ∧
     bufferRuns s k.region (k.cqVa + 16 * k.cqTail) 16 .write = some [(66048, 16)] ∧ (∀ p, (s.home (edgeHome 0 p)).forwards = []) ∧
     (k.cqTail + 1) % k.size = k.cqSeen ∧ regionPa s 0 4096 .write = some 65536 ∧ runsClaimed s 0 [(65536, 64)] = false ∧
     bufferHeld s k.region (k.cqVa + 16 * k.cqTail) 16 .write = false) ∧
    (tabled.nvmeQ 0 0).opened = false ∧
    (∀ c ∈ [(⟨1, 1, true, 0, 1, [(65536, 8)]⟩ : NvmeCmd), ⟨1, 2, false, 0, 1, [(65536, 8)]⟩], let s := nvq 0 { ctrl := [c] }
     (s.nvmeQ 0 0).ctrl = [c] ∧ ((s.nvmeQ 0 0).cqTail + 1) % (s.nvmeQ 0 0).size ≠ (s.nvmeQ 0 0).cqSeen ∧ runsClaimed s 0 c.runs = false ∧
     bufferHeld s (s.nvmeQ 0 0).region ((s.nvmeQ 0 0).cqVa + 16 * (s.nvmeQ 0 0).cqTail) 16 .write = false ∧ edgeExists 65536 8 = true ∧ 65536 + 8 ≤ 66048) := by
  refine ⟨⟨by decide, by decide, by decide, by decide, by decide, by decide, by decide, by decide, fun _ => rfl, by decide, by decide, by decide, by decide⟩, by decide, by decide⟩
/-- A read of no bytes moves no table (the premise of a command that reads). -/
theorem witness_NvmeQueuesAndOxsorPaths_read (va : Nat) : let s := nvq 0 { ctrl := [⟨1, 2, false, 0, 1, [(65536, 0)]⟩] }
    walkFrom s 0 0 0 va .write 5 0 = walkFrom { s with mem := (writeRuns s 0 [(65536, 0)] []).mem } 0 0 0 va .write 5 0 := rfl
/-- The second message of a path, past a first of another virtual channel that finds no room. -/
theorem witness_NvmeQueuesAndOxsorPaths_link :
    let x := { msg 67108928 1 3 1 (.stream [1]) with route := some (4 * 32 + 0, false, false) }
    let m := { msg 67108928 1 2 1 (.stream [1]) with route := some (4 * 32 + 0, false, false) }
    let full : Tab (List Msg) := [(bufKey 0 3 false, [{ x with len := 8 }])]
    let s (down : Bool) (now : Nat) (b : Tab (List Msg)) : State :=
      { base 0 with tiles := [(589824 + 32, { rt := { bufs := b } })], oxsor := [(oxsorKey 0 1, { queue := [x, m], down := down })], now := now }
    ((s false 0 full).oxsor.look (oxsorKey 0 1) {}).queue = [x] ++ m :: [] ∧ ((s false 0 []).oxsor.look (oxsorKey 0 1) {}).down = false ∧
    (∀ y ∈ [x], (s false 0 full).farRoom 1 y = false ∧ y.vc ≠ m.vc) ∧ (s false 0 full).farRoom 1 m = true ∧
    (let two := full ++ [(bufKey 0 2 false, [{ m with len := 8 }])]
     ∀ y ∈ [x, m], (s false 0 two).farRoom 1 y = false) ∧
    (let b (n : Nat) := [(bufKey 0 2 false, [{ m with len := n }])]
     (s false 0 (b 5)).farRoom 1 m = true ∧ (s false 0 (b 6)).farRoom 1 m = false) ∧
    (s false 0 []).ingressRefusal 32 (589824 + 32) m = none ∧ ((s true 0 []).oxsor.look (oxsorKey 0 1) {}).down = true ∧
    ((s false 0 []).oxsor.look (oxsorKey 0 1) {}).since + 10000000 ≤ (s false 10000000 []).now ∧
    (s false 9999999 []).now < ((s false 0 []).oxsor.look (oxsorKey 0 1) {}).since + 10000000 ∧ ((base 0).oxsor.look (oxsorKey 0 1) {}).queue = [] := by
  decide

def signed : Stage := ⟨[1], 1, 5, 2⟩
def found (ok : Bool) (islands : List Nat) : SelfTest := ⟨ok, islands, [], [], [], [], [], signed, [signed], []⟩
def fuses : Tab Nat := [(0, Config.shake256 (byteNats 57 6)), (1, Config.shake256 (byteNats 57 5))]
def life (l : LifeState) : State := { base 0 with wafers := [(0, { life := l, vendorKey := 5, ownerKey := 6, fused := fuses })] }
/-- Every stage; signatures and revocations are as Config says, so each is met under the verdict it needs. -/
theorem witness_ResetsBringTheWaferUp : ((life .secured).wafer 0).hostrst = false ∧ (found false []).serviceOk = false ∧
    (found true [0]).failedIslands.contains 0 = true ∧ (found true []).failedIslands.contains 0 = false ∧
    (((life .secured).wipeWafer 0).mapWafer 0 (found true [])).inService 0 = 3024 ∧ ((life .blank).wafer 0).life = .blank ∧
    ((life .secured).wafer 0).life ≠ .retired ∧ stageOk (life .secured) 0 { signed with key := 0 } = false ∧
    (Config.slotRevoked 0 1 = false → Config.ed448Verify 5 (Config.shake256 [1]) 2 = true → stageOk (life .secured) 0 (found true []).firmware = true ∧
      (found true []).stages.all (stageOk (life .secured) 0) = true ∧ (found true []).stages[0]? = some signed) := by
  refine ⟨by decide, by decide, by decide, by decide, by decide, by decide, by decide, by decide, fun h h' => ?_⟩
  have e : stageOk (life .secured) 0 signed = (true && (5 != 0 && !Config.slotRevoked 0 1 &&
      some (Config.shake256 (byteNats 57 5)) == some (Config.shake256 (byteNats 57 5))) && Config.ed448Verify 5 (Config.shake256 [1]) 2) := rfl
  have k : stageOk (life .secured) 0 signed = true := by rw [e, h, h']; simp
  exact ⟨k, by simp [found, k], rfl⟩
/-- All clusters of a wafer off but the first in service. -/
theorem witness_ResetsBringTheWaferUp_stage3 : ({ base 0 with clusters := (List.range 3024).map (fun c => (c, { off := true })) } : State).clusters.length = 3024 := by
  show (List.map _ (List.range 3024)).length = 3024
  rw [List.length_map, List.length_range]

theorem witness_LifeCycleNeedsTokens : ((life .blank).wafer 0).life = .blank ∧ ((life .manufacture).wafer 0).life = .manufacture ∧
    tokenOk { base 0 with wafers := [(0, { life := .manufacture })] } 0 0 1 .secured = false ∧ edgeClaimed (life .manufacture) 0 0 122 = false ∧
    edgeClaimed { life .manufacture with homes := [(67108864, { claims := [⟨1, 0, 0⟩] })] } 0 0 122 = true ∧
    ((life .blank).wafer 0).bootSafe = false ∧ (({ base 0 with wafers := [(0, { bootSafe := true })] } : State).wafer 0).bootSafe = true ∧
    (let s : State := { life .manufacture with mem := Memory.writeNat [] (edgeKey 0 0) 8 1 }
     (s.wafer 0).tokenCount < (tokenOf s 0 0).1 ∧ (s.wafer 0).vendorKey = 5 ∧ (s.wafer 0).ownerKey = 6) := by decide
/-- A token counts where its key is not revoked and its signature verifies (Config). -/
theorem witness_LifeCycleNeedsTokens_token (h : Config.slotRevoked 0 1 = false) : let s : State := { life .manufacture with mem := Memory.writeNat [] (edgeKey 0 0) 8 1 }
    Config.ed448Verify 5 (Config.shake256 ([2] ++ byteNats 8 (Config.deviceId 0) ++ byteNats 8 (tokenOf s 0 0).1)) (tokenOf s 0 0).2 = true →
    tokenOk s 0 0 1 .secured = true := by
  intro s
  have t : decide (0 < (tokenOf s 0 0).1) = true := by decide +revert
  intro h'
  have e : tokenOk s 0 0 1 .secured = ((5 != 0 && !Config.slotRevoked 0 1 &&
      some (Config.shake256 (byteNats 57 5)) == some (Config.shake256 (byteNats 57 5))) && decide (0 < (tokenOf s 0 0).1) &&
      Config.ed448Verify 5 (Config.shake256 ([2] ++ byteNats 8 (Config.deviceId 0) ++ byteNats 8 (tokenOf s 0 0).1)) (tokenOf s 0 0).2) := rfl
  rw [e, h, h', t]; simp

/-- A header alone: one cluster, no tiles, segments, launches or recipes. -/
def emptyImage : List Nat := [0x47, 0x57, 0x50, 0x49, 1, 0, 0, 0, 1, 0, 1, 0] ++ List.replicate 16 0 ++
  [64, 0, 0, 0, 64, 0, 0, 0, 64, 0, 0, 0, 64, 0, 0, 0, 64, 0, 0, 0] ++ List.replicate 16 0
theorem witness_ImagesAndFunctionResets : imageOk (base 0) 0 0 [] = false ∧ boundRegion (base 0) 0 0 = none ∧
    boundRegion { base 0 with islands := [(0, { vfBind := [(63, 9223372036854775808 + 255)] })] } 0 63 = some 255 ∧
    (({ base 0 with regions := [(255, { ten := 3 })] } : State).region 255).ten = 3 ∧
    (({ base 0 with wafers := [(0, { hostrst := true })] } : State).wafer 0).hostrst = true ∧
    (∀ v, v < 64 → ((base 0).wafer 0).vfLink.look v 0 = 0 → boundRegion (base 0) 0 v = none) ∧
    (∀ n ∈ [1, 2], (({ base 0 with regions := [(255, { ten := n })] } : State).region 255).ten = n) ∧ recBad 0 2 = true ∧ recBad 0 0 = false ∧
    edgeClaimed (base 0) (regWafer 0) ((base 0).region 0).ctxBase (areaSize 1) = false := by
  refine ⟨by decide, by decide, by decide, by decide, by decide, fun _ _ _ => rfl, by decide, by decide, by decide, by decide⟩
/-- Where images need no signature (Config) the loader takes it. -/
theorem witness_ImagesAndFunctionResets_image (h : Config.signedImages = false) : imageOk (base 0) 0 0 emptyImage = true ∧
    imgClusters (base 0) 0 0 (imgHdr emptyImage) = [0] := by
  refine ⟨?_, by decide⟩
  unfold imageOk; rw [h]; decide
theorem witness_ImagesAndFunctionResets_claimed (h : Config.signedImages = false) :
    let s : State := { base 0 with homes := [(67108864, { claims := [⟨0, 0, 0⟩] })] }
    imageOk s 0 0 emptyImage = true ∧ edgeClaimed s (regWafer 0) (s.region 0).ctxBase (areaSize 1) = true := by
  refine ⟨?_, by decide⟩
  unfold imageOk; rw [h]; decide

theorem witness_DebuggersStopAndStep :
    let dbg (d : DebugSt) (t : TState) := dbgOn (at_ 1 {} { ts := t, heldTs := .running, dbg := d } {})
    ((base 0).region 0).dbgEn = false ∧ (dbgOn (base 0)).me.run.clear ∧ ((dbgOn (base 0)).thread 0 1).run.clear ∧
    (dbgOn (base 0)).midway 0 0 = false ∧ (dbg { halted := true } .stopped).me.run.failed = false ∧ (2 : Nat) < 4 ∧ dbgMay { base 0 with regions := [(0, { dbgAllowed := true })] } 0 = true ∧ dbgMay (base 0) 0 = false ∧
    ((dbgOn (base 0)).region 0).dbgEn = true ∧ (dbgOn (base 0)).regionTiles 0 = [0] ∧ (base 0).me.vecBusy = false ∧
    (dbg { halted := true, atEbreak := true } .stopped).me.run.dbg.halted = true ∧ (dbg { halted := true } .stopped).me.run.stop = {} ∧
    ((dbg { halted := true } .stopped).myTile.c.reps.look 0 {}).v = false ∧ (dbg {} .running).me.run.dbg.halted = false ∧
    atBreakpoint { dbgOn (base 0) with tiles := [(0, { thr := [(0, ⟨{}, going⟩)], c := { brk := [(0, 9223372036854775808)] } })] } 0 0 = true ∧
    atBreakpoint (dbgOn (base 0)) 0 0 = false ∧ ((base 0).wafer (regWafer 0)).bootSafe = false ∧
    (({ base 0 with wafers := [(0, { bootSafe := true })] } : State).wafer (regWafer 0)).bootSafe = true ∧ (dbg {} .stopped).myTile.c.dead = false := by decide

theorem witness_IllegalInstructionsTrap : (base 1).canTrap ∧ isEvent (.vadd ⟨false, 0, 0, 1, 1, 1⟩) = false ∧
    classAllows 1 (.vadd ⟨false, 0, 0, 1, 1, 1⟩) = false ∧ classAllows 0 (.lld ⟨false, 1, 1, 0⟩) = false ∧ classAllows 1 (.lld ⟨false, 1, 1, 0⟩) = false := by
  simp only [canTrap_iff]; decide

theorem witness_StepRunsTheDecodedInstruction :
    let s (w : Nat) : State := { base 0 with mem := code w }
    (s 0x00A00093).agenda = [] ∧ (s 0).me.run.ts = .running ∧ (s 0).midway 0 0 = false ∧ (s 0).heldForStop 0 0 = false ∧ (s 0).replaying 0 0 = false ∧ (s 0).me.run.gather.role ≠ .leader ∧
    atBreakpoint (s 0) 0 0 = false ∧ (at_ 2 { instret := 4095 } going {}).me.r.instret < 4096 ∧ (s 0).me.run.rep = none ∧
    poisonedAt (s 0) 0 131068 4 = false ∧ (s 0).me.run.stale.look 32767 [] = [] ∧
    decode 0x00A00093 = .ok (.integerOp .addi 1 0 0 10) ∧ (s 0).me.interlocked (.integerOp .addi 1 0 0 10) = false ∧
    (at_ 0 {} { ts := .running, outs := [lastOf (.x 1 8 false) 2] } {}).me.interlocked (.integerOp .addi 1 1 0 10) = true ∧
    decode 0 = .reject .compressed ∧ pcOff (BitVec.ofNat 64 (own + 131068)) = 131068 ∧ 131072 ≤ pcOff (BitVec.ofNat 64 (own + 131072)) ∧
    (at_ 0 {} { ts := .running, rep := some ⟨0x00A00093, 0, 2, false⟩ } {}).me.run.rep = some ⟨0x00A00093, 0, 2, false⟩ ∧
    (at_ 0 {} { ts := .running, gather := { role := .attached, buf := [⟨0x00A00093, 0, 4⟩] } } {}).me.run.gather.buf = [⟨0x00A00093, 0, 4⟩] ∧
    (at_ 0 {} {} {}).me.run.ts ≠ .running ∧ isEvent .wfiWake = true ∧
    (∀ m ∈ [Move.run 1 2, .event 1 2 .wfiWake, .elapse 5, .drop 1 0, .corrected 1, .islandCorrected 47, .read (.tile 0 8 0 0), .read (.island 0 0x31008), .hostRange 0 none [(0, 64)],
      .hostRange 0 (some 255) [(0, 64)], .assignVf 0 63 3, .mailbox 0 67 0 8 (some 5)], ({ base 0 with agenda := [m] } : State).agenda = [m]) ∧
    (systemRead (base 0) (.tile ((base 0).nameOf 0) 8 0 0)).isSome = true ∧ systemRead { base 0 with wafers := [(0, { bootSafe := true })] } (.island 0 0x31008) = none := by decide

theorem witness_DecodingInvertsEncoding : wellFormed (.integerOp .addi 31 31 0 (-2048)) = true ∧
    (encodeRaw (.integerOp .addi 31 31 0 (-2048))).isSome ∧ wellFormed (.rep true 64 7 3) = true ∧ (encodeRaw (.rep true 64 7 3)).isSome := by decide
theorem witness_MemoryStaysCanonical : memOk (base 0) ∧ memOk { base 0 with mem := code 0x00A00093 } ∧
    ∃ t, step { base 0 with mem := code 0x00A00093 } = .next t := ⟨by unfold memOk; decide, by unfold memOk; decide, _, rfl⟩

/-! One step on a small state; the expected values are worked out from the rules and examples named -/

/-- What a next state shows; a stop shows nothing. -/
def shows {α : Type} (o : Host.Outcome State Fault Refusal) (f : State → α) : Option α :=
  match o with
  | .next t => some (f t)
  | _ => none
/-- A register of t0 of tile 0 after an instruction on registers given. -/
def xAfter (i : Instr) (l : List (Nat × Nat)) (rd : Nat) : Option Nat := shows (exec i (at_ 0 (regs l) going {})) (fun t => (t.getX rd).toNat)
def vAfter (i : Instr) (l : List (Nat × Nat)) (rd : Nat) : Option Nat :=
  shows (exec i (at_ 0 {} going { awake with r := { v := l.map (fun x => (x.1, BitVec.ofNat 512 x.2)) } })) (fun t => (t.getV rd).toNat)
def flagsAfter (i : Instr) (l : List (Nat × Nat)) : Option Nat :=
  shows (exec i (at_ 0 {} going { awake with r := { v := l.map (fun x => (x.1, BitVec.ofNat 512 x.2)) } })) (fun t => t.me.r.fxflags)

/-- 02 R40: a sum wraps, x0 takes no write, a 32-bit result is sign-extended, and the high halves of products differ by sign. -/
theorem test_integers : xAfter (.integerOp .add 3 1 2 0) [(1, 2 ^ 64 - 1), (2, 2)] 3 = some 1 ∧
    xAfter (.integerOp .add 0 1 2 0) [(1, 5), (2, 2)] 0 = some 0 ∧
    xAfter (.integerOp .addw 3 1 2 0) [(1, 0x7FFFFFFF), (2, 1)] 3 = some 0xFFFFFFFF80000000 ∧
    xAfter (.integerOp .mulhu 3 1 2 0) [(1, 2 ^ 64 - 1), (2, 2 ^ 64 - 1)] 3 = some (2 ^ 64 - 2) ∧
    xAfter (.integerOp .mulh 3 1 2 0) [(1, 2 ^ 64 - 1), (2, 2 ^ 64 - 1)] 3 = some 0 := by decide
theorem test_integer_corners : xAfter (.integerOp .div 3 1 2 0) [(1, 7), (2, 0)] 3 = some (2 ^ 64 - 1) ∧
    xAfter (.integerOp .rem 3 1 2 0) [(1, 2 ^ 63), (2, 2 ^ 64 - 1)] 3 = some 0 ∧
    xAfter (.integerOp .sra 3 1 2 0) [(1, 2 ^ 63), (2, 127)] 3 = some (2 ^ 64 - 1) ∧
    xAfter (.integerOp .clzw 3 1 0 0) [(1, 2 ^ 40)] 3 = some 32 ∧
    xAfter (.integerOp .sh1adduw 3 1 2 0) [(1, 2 ^ 64 - 1), (2, 1)] 3 = some 0x1FFFFFFFF ∧
    xAfter (.integerOp .rev8 3 1 0 0) [(1, 0x0102030405060708)] 3 = some 0x0807060504030201 := by decide
/-- 02 R40: 1.0 + 2.0 is 3.0; a tie rounds to the even neighbour and raises NX; fflags collects (04 R79). -/
theorem test_fp : shows (exec (.fpOp .fadd 0 3 1 2 0) (at_ 0 { f := [(1, 0x3F800000), (2, 0x40000000)] } going {}))
      (fun t => (t.me.r.getF 3, t.me.r.fflags)) = some (0x40400000, 0) ∧
    shows (exec (.fpOp .fadd 7 3 1 2 0) (at_ 0 { f := [(1, 0x4B800000), (2, 0x3F800000)], fflags := 8 } going {}))
      (fun t => (t.me.r.getF 3, t.me.r.fflags)) = some (0x4B800000, 9) := by decide
/-- 12 R263, 04 R73: a byte load extends its sign; a store writes the low bytes, the lowest first. -/
theorem test_load_store : shows (exec (.load .lb 3 1 0) { at_ 0 (regs [(1, own + 131071)]) going {} with mem := [(131071, 0x80)] })
      (fun t => (t.getX 3).toNat) = some (2 ^ 64 - 128) ∧
    shows (exec (.store .sh 1 2 (-2)) (at_ 0 (regs [(1, own + 131072), (2, 0x10203)]) going {})) (·.mem) =
      some [(131070, 0x03), (131071, 0x02)] := by decide
/-- 14 R296, 04 R78: the old word sign-extended, the sum in memory; an `sc` without a reservation writes 1 and stores nothing. -/
theorem test_atomics : shows (exec (.amo .add false false false 3 1 2)
      { at_ 0 (regs [(1, own), (2, 1)]) going {} with mem := [(0, 255), (1, 255), (2, 255), (3, 255)] })
      (fun t => ((t.getX 3).toNat, t.mem)) = some (2 ^ 64 - 1, []) ∧
    shows (exec (.sc true false false 3 1 2) (at_ 0 (regs [(1, own), (2, 7)]) going {})) (fun t => ((t.getX 3).toNat, t.mem)) = some (1, []) := by
  decide
/-- 04 R81: a count of 0 skips the body; any other sets the loop registers, and the bounds end at offset 0x1FFFC. -/
theorem test_lpset : shows (exec (.lpset false 3 5) (base 0)) (fun t => (t.me.r.pc.toNat, t.me.r.loop.lpa)) = some (16, false) ∧
    shows (exec (.lpset false 3 5) (at_ 0 { regs [(5, 9)] with pc := 64 } going {})) (fun t => (t.me.r.pc.toNat, t.me.r.loop)) =
      some (68, ⟨true, false, 0, 9, 68, 76⟩) := by decide
/-- 04 R82: at `lpend` with two passes left the next instruction is the body's first; with one, the loop ends. -/
theorem test_back_edge :
    shows (exec (.integerOp .addi 1 1 0 1) (at_ 0 { pc := 76, loop := ⟨true, false, 0, 2, 68, 76⟩ } going {}))
      (fun t => (t.me.r.pc.toNat, t.me.r.loop.count.toNat, t.me.r.loop.lpa)) = some (68, 1, true) ∧
    shows (exec (.integerOp .addi 1 1 0 1) (at_ 0 { pc := 76, loop := ⟨true, false, 0, 1, 68, 76⟩ } going {}))
      (fun t => (t.me.r.pc.toNat, t.me.r.loop.lpa)) = some (80, false) := by decide
/-- 04 R88: from (1, 0) the output is rotl(5, 7) · 9 and the state (2^24 + 1 + 2^16, 2^37); from (0, 2) the output is 0. -/
theorem test_rng : shows (exec (.rng64 ⟨false, 3, 0, 0⟩) (at_ 0 { s0 := 1 } going {})) (fun t => ((t.getX 3).toNat, t.me.r.s0.toNat, t.me.r.s1.toNat)) =
      some (5760, 2 ^ 24 + 1 + 2 ^ 16, 2 ^ 37) ∧
    shows (exec (.rng64 ⟨false, 3, 0, 0⟩) (at_ 0 { s1 := 2 } going {})) (fun t => ((t.getX 3).toNat, t.me.r.s0.toNat, t.me.r.s1.toNat)) =
      some (0, 2 + 2 ^ 17, 2 ^ 38) := by decide
/-- 05 R107: bytes add modulo 256 without a carry into the next; 05 R111: a signed comparison writes the bytes of its element. -/
theorem test_vectors : vAfter (.vadd ⟨false, 0, 0, 2, 1, 3⟩) [(1, 0x01FF), (2, 0x0101)] 3 = some 0x0200 ∧
    vAfter (.vabs ⟨false, 0, 0, 1, 3⟩) [(1, 0xFE03)] 3 = some 0x0203 ∧ vAfter (.viota ⟨false, 3, 0, 0, 3⟩) [] 3 =
      some (2 ^ 64 + 2 * 2 ^ 128 + 3 * 2 ^ 192 + 4 * 2 ^ 256 + 5 * 2 ^ 320 + 6 * 2 ^ 384 + 7 * 2 ^ 448) := by decide
/-- 03 R60, the chapter's examples: 1.0, 0.3, 500 and 0.001 as E4M3; 2.5 and −7 as E2M1, with the flags of each. -/
theorem test_conversions : (vAfter (.vcvt 23 ⟨false, 6, 0, 1, 3⟩) [(1, 0x3F800000)] 3).map (· % 256) = some 0x38 ∧
    (vAfter (.vcvt 23 ⟨false, 6, 0, 1, 3⟩) [(1, 0x3E99999A)] 3).map (· % 256) = some 0x2A ∧
    (vAfter (.vcvt 23 ⟨false, 6, 0, 1, 3⟩) [(1, 0x43FA0000)] 3).map (· % 256) = some 0x7E ∧
    (vAfter (.vcvt 23 ⟨false, 6, 0, 1, 3⟩) [(1, 0x3A83126F)] 3).map (· % 256) = some 0x01 ∧
    (vAfter (.vcvt 26 ⟨false, 6, 0, 1, 3⟩) [(1, 0x40200000)] 3).map (· % 16) = some 0x4 ∧
    (vAfter (.vcvt 26 ⟨false, 6, 0, 1, 3⟩) [(1, 0xC0E00000)] 3).map (· % 16) = some 0xF ∧
    flagsAfter (.vcvt 23 ⟨false, 6, 0, 1, 3⟩) [(1, 0x43FA0000)] = flagsAfter (.vcvt 26 ⟨false, 6, 0, 1, 3⟩) [(1, 0xC0E00000)] ∧
    flagsAfter (.vcvt 23 ⟨false, 6, 0, 1, 3⟩) [(1, 0x3F800000)] = some 0 := by decide
/-- 05 R117: 1/3 and tanh 0 and 2^1, correctly rounded in FP32. -/
theorem test_functions : (vAfter (.vrcp ⟨false, 6, 0, 1, 3⟩) [(1, 0x40400000)] 3).map (· % 2 ^ 32) = some 0x3EAAAAAB ∧
    (vAfter (.vexp2 ⟨false, 6, 0, 1, 3⟩) [(1, 0x3F800000)] 3).map (· % 2 ^ 32) = some 0x40000000 ∧
    (vAfter (.vrsqrt ⟨false, 6, 0, 1, 3⟩) [(1, 0x40800000)] 3).map (· % 2 ^ 32) = some 0x3F000000 := by decide
/-- 15 R328: the CRC-32C of the digits 1 to 9 is the polynomial's check value. -/
theorem test_crc : crc32c 0x393837363534333231 0 9 = 0xE3069283 := by decide
/-- 02 R31, 16 R339: an illegal word traps with cause 0x02: t1 goes no further, and its registers stand. -/
theorem test_illegal : shows (step (State.withFetchWord { at_ 1 (regs [(1, 7)]) going {} with agenda := [] } 32 0))
    (fun t => (t.me.r.pc.toNat, (t.getX 1).toNat, t.me.run.ts == .running)) = some (0, 7, false) := by decide
/-- 01 R20: a step fetches at the pc, decodes and executes: `addi x1, x0, 10`. -/
theorem test_step : shows (step (State.withFetchWord (base 0) 32 0x00A00093)) (fun t => (t.me.r.pc.toNat, (t.getX 1).toNat, t.me.r.instret)) =
    some (4, 10, 1) := by decide

end Sys2Proof.Tests
end

section
/-!
PROOFS. 04 R80 to R87: what follows an instruction in sequence (O10), and how `lpset` and `rep` set their loop and repeat up (O11).
-/
namespace Sys2Proof.Machine

/-! The back-edge test (04 R82) -/

theorem passEdge_off_end (t : Thread) (off : Nat) (h : ¬(t.r.loop.lpa = true ∧ off = t.r.loop.last)) :
    (t.passEdge off).r = { t.r with pc := pcWith t.r.pc (off + 4) } := by
  simp [Thread.passEdge, h]

theorem passEdge_iterate (t : Thread) (off : Nat) (hl : t.r.loop.lpa = true) (he : off = t.r.loop.last) (hc : 1 < t.r.loop.count.toNat) :
    (t.passEdge off).r = { t.r with pc := pcWith t.r.pc t.r.loop.start, loop := { t.r.loop with count := t.r.loop.count - 1 } } := by
  simp [Thread.passEdge, hl, he, Nat.not_le.mpr hc]

theorem passEdge_leave (t : Thread) (off : Nat) (hl : t.r.loop.lpa = true) (he : off = t.r.loop.last) (hc : t.r.loop.count.toNat ≤ 1) :
    (t.passEdge off).r = { t.r with pc := pcWith t.r.pc (off + 4), loop := { t.r.loop with count := 0, lpa := false } } := by
  simp [Thread.passEdge, hl, ← he, hc]

/-! What follows in sequence (04 R82, R86) -/

theorem Regs.after_none (r : Regs) : r.after none = (Thread.passEdge { r := r } (pcOff r.pc)).r.counted := rfl

theorem Regs.after_repeats (r : Regs) (q : RepRun) (h : r.loop.repdone + 1 < q.count) :
    r.after (some q) = ({ r with loop := { r.loop with repdone := r.loop.repdone + 1 } } : Regs).counted := by
  simp [Regs.after, Thread.seqNext, h]

/-- The registers once REPA and REPDONE are cleared, before the pair is passed (04 R86). -/
def Regs.repOver (r : Regs) : Regs := { r with loop := { r.loop with repa := false, repdone := 0 } }

/-- The last repetition clears `lpstate`'s repeat fields and passes the edge of the target's word. -/
theorem Regs.after_lastRepeat (r : Regs) (q : RepRun) (h : q.count ≤ r.loop.repdone + 1) :
    r.after (some q) = (Thread.passEdge { r := r.repOver } (pcOff r.pc + 4)).r.counted := by
  simp only [Regs.after, Thread.seqNext, if_neg (Nat.not_lt.mpr h)]
  rw [passEdge_r _ _ {}]
  rfl

/-! `lpset` (04 R81) -/

theorem exec_lpset_eq (s : State) (sb : Bool) (len rs1 : Nat) (ht : s.focus.thread ≤ 1) :
    exec (.lpset sb len rs1) s = .next (doLpset sb len rs1 s) :=
  run_next s _ _ (class01 s _ ht rfl rfl)

theorem doLpset_pastEnd (s : State) (sb : Bool) (len rs1 : Nat) (h : 0x1FFFC < pcOff s.me.r.pc + 4 * len) :
    doLpset sb len rs1 s = s.takeTrap 0x01 0 (s.prefixOf s.focus.tile + pcOff s.me.r.pc + 4 * len) := by
  simp only [doLpset, if_pos h]

theorem doLpset_nested (s : State) (sb : Bool) (len rs1 : Nat) (h : pcOff s.me.r.pc + 4 * len ≤ 0x1FFFC) (hl : s.me.r.loop.lpa = true) :
    doLpset sb len rs1 s = s.illegal := by
  simp only [doLpset, if_neg (Nat.not_lt.mpr h), if_pos hl]

theorem doLpset_skips (s : State) (sb : Bool) (len rs1 : Nat) (h : pcOff s.me.r.pc + 4 * len ≤ 0x1FFFC) (hl : s.me.r.loop.lpa = false)
    (hn : s.getX rs1 = 0) : doLpset sb len rs1 s =
      s.finish { s.me with r := { s.me.r with pc := pcWith s.me.r.pc (pcOff s.me.r.pc + 4 + 4 * len) } } sb := by
  simp only [doLpset, if_neg (Nat.not_lt.mpr h), hl, Bool.false_eq_true, if_false, if_pos hn]

theorem doLpset_enters (s : State) (sb : Bool) (len rs1 : Nat) (h : pcOff s.me.r.pc + 4 * len ≤ 0x1FFFC) (hl : s.me.r.loop.lpa = false)
    (hn : s.getX rs1 ≠ 0) : doLpset sb len rs1 s =
      s.finish { s.me with r := { s.me.r with
        pc := pcWith s.me.r.pc (pcOff s.me.r.pc + 4),
        loop := { s.me.r.loop with
          count := s.getX rs1, start := pcOff s.me.r.pc + 4, last := pcOff s.me.r.pc + 4 * len, lpa := true } } } sb := by
  simp only [doLpset, if_neg (Nat.not_lt.mpr h), hl, Bool.false_eq_true, if_false, if_neg hn]

/-- An instruction that ends with new registers of its thread alone. -/
theorem finish_regs_done (s : State) (r : Regs) (sb : Bool) (hs : s.settled sb) :
    Done s (s.finish { s.me with r := r } sb) r.counted s.myTile.r s.mem :=
  finish_done s { s.me with r := r } sb hs.1 hs.2

/-! `rep` (04 R84 to R87) -/

/-- A `rep` of a thread that leads no gathering comes to the check of its pair with the word `w` after it: the word is there, its granule is
not poisoned, and the `rep` does not end a loop (04 R83, R85). -/
structure State.RepReads (s : State) (w : Nat) : Prop where
  notLeader : s.me.run.gather.role ≠ .leader
  sound : poisonedAt s s.focus.tile (pcOff s.me.r.pc + 4) 4 = false
  word : s.wordAfter = some (some w)
  insideLoop : ¬(s.me.r.loop.lpa = true ∧ pcOff s.me.r.pc = s.me.r.loop.last)

/-- The first repetition that a `rep` has still to make (04 R86, R87). -/
def Loop.resumesAt (l : Loop) : Nat := if l.repa then l.repdone else 0

theorem exec_rep_eq (s : State) (sb : Bool) (count mask step : Nat) (ht : s.focus.thread ≤ 1) :
    exec (.rep sb count mask step) s = .next (doRep sb count mask step s) :=
  run_next s _ _ (class01 s _ ht rfl rfl)

/-- Only a leader forwards a pair (09 R224). -/
theorem forwardPair_notLeader (s : State) (w : Nat) (h : s.me.run.gather.role ≠ .leader) : s.forwardPair w = s := by
  simp [State.forwardPair, h]

/-- A legal pair's repetition `j` in progress: its stepped word, the step to the next, the count, and S of the target (04 R86). -/
def repRunAt (w count mask step j : Nat) : RepRun := ⟨steppedWord w mask step j, steppedWord 0 mask step 1, count, hasS w⟩

/-- The thread with repetition `j` set up to run next. -/
def Thread.repSet (t : Thread) (j : Nat) (q : RepRun) : Thread :=
  { r := { t.r with loop := { t.r.loop with repa := true, repdone := j } }, run := { t.run with rep := some q } }

/-- The thread past a pair that has no repetition left. -/
def Thread.repPassed (t : Thread) : Thread := (t.repDone.modRun (fun r => { r with fwdDone := false })).followed 2

theorem repPassed_r (t : Thread) : t.repPassed.r = t.repDone.r := followed_r _ 2

section
variable {s : State} {sb : Bool} {count mask step w : Nat} (hr : s.RepReads w)
include hr

theorem doRep_illegal {bad : Nat} (hc : repCheck s.focus.thread w count mask step = some bad) :
    doRep sb count mask step s = { s with focus := { s.focus with word := bad } }.illegal := by
  obtain ⟨hlead, hsound, hword, hloop⟩ := hr
  simp [doRep, hlead, hsound, hword, hloop, hc]

variable (hc : repCheck s.focus.thread w count mask step = none)
  (hs : sb = true → s.me.r.loop.resumesAt = 0 → s.switched = true)
include hc hs

/-- A pair that passes the check is passed when all its repetitions are done, and else has its next repetition set up. -/
theorem doRep_legal : doRep sb count mask step s =
    if count ≤ s.me.r.loop.resumesAt then s.modMe Thread.repPassed
    else s.modMe (·.repSet s.me.r.loop.resumesAt (repRunAt w count mask step s.me.r.loop.resumesAt)) := by
  obtain ⟨hlead, hsound, hword, hloop⟩ := hr
  have hgo : ¬(sb = true ∧ s.me.r.loop.resumesAt = 0 ∧ (!s.switched) = true) := by
    rintro ⟨hsb, hj, hn⟩
    simp [hs hsb hj] at hn
  unfold doRep
  dsimp only
  rw [if_neg (by simp [hlead]), if_neg (by simp [hsound]), hword]
  dsimp only
  rw [if_neg hloop, hc]
  dsimp only
  rw [forwardPair_notLeader s w hlead]
  exact if_neg hgo

theorem doRep_setsUp (hj : s.me.r.loop.resumesAt < count) :
    Done s (doRep sb count mask step s) { s.me.r with loop := { s.me.r.loop with repa := true, repdone := s.me.r.loop.resumesAt } }
      s.myTile.r s.mem ∧
    (doRep sb count mask step s).me.run.rep = some (repRunAt w count mask step s.me.r.loop.resumesAt) := by
  rw [doRep_legal hr hc hs, if_neg (Nat.not_le.mpr hj)]
  exact ⟨Done.modMe s _, by rw [State.me_modMe]; rfl⟩

theorem doRep_passes (hj : count ≤ s.me.r.loop.resumesAt) :
    Done s (doRep sb count mask step s) s.me.repDone.r s.myTile.r s.mem := by
  rw [doRep_legal hr hc hs, if_pos hj, ← repPassed_r]
  exact Done.modMe s Thread.repPassed

end

/-- Settles O10: the back-edge test at the instruction's own offset, and after the last repetition at its target's. -/
theorem whatFollowsInSequence : Obligations.WhatFollowsInSequence := by
  intro r q off
  refine ⟨fun h => ?_, fun hl he hc => ?_, fun hl he hc => ?_, Regs.after_repeats r q, fun hq h => ?_, fun hq hl he hc => ?_,
    fun hq hl he hc => ?_⟩
  · rw [Regs.after_none, passEdge_off_end _ _ h]
  · rw [Regs.after_none, passEdge_iterate _ _ hl he hc]
  · rw [Regs.after_none, passEdge_leave _ _ hl he hc]
  · rw [Regs.after_lastRepeat r q hq, passEdge_off_end _ _ h]; rfl
  · rw [Regs.after_lastRepeat r q hq, passEdge_iterate _ _ hl he hc]; rfl
  · rw [Regs.after_lastRepeat r q hq, passEdge_leave _ _ hl he hc]; rfl

/-- Settles O11: `lpset` by its four branches; `rep`, once it reads its word, by the pair's check and the repetitions done. -/
theorem loopsAndRepeatsSetUp : Obligations.LoopsAndRepeatsSetUp := by
  constructor
  · intro s sb len rs1 ht off r body
    rw [exec_lpset_eq s sb len rs1 ht]
    refine ⟨fun h hl hn hs => ⟨_, rfl, ?_⟩, fun h hl hn hs => ⟨_, rfl, ?_⟩, fun h htrap => ⟨_, rfl, ?_⟩, fun h hl htrap => ⟨_, rfl, ?_⟩⟩
    · rw [doLpset_enters s sb len rs1 h hl hn]; exact finish_regs_done s _ sb hs
    · rw [doLpset_skips s sb len rs1 h hl hn]; exact finish_regs_done s _ sb hs
    · rw [doLpset_pastEnd s sb len rs1 h]; exact takeTrap_trapped s _ _ _ htrap
    · rw [doLpset_nested s sb len rs1 h hl]; exact takeTrap_trapped s _ _ _ htrap
  · intro s sb count mask step w ht hrole hsound hword hloop j
    rw [exec_rep_eq s sb count mask step ht]
    have hr : s.RepReads w := ⟨hrole.1, hsound, hword, hloop⟩
    refine ⟨fun hc hs hj => ⟨_, rfl, doRep_setsUp hr hc hs hj⟩,
      fun hc hs hj => ⟨_, rfl, doRep_passes hr hc hs hj⟩, fun bad hc htrap => ⟨_, rfl, ?_⟩⟩
    rw [doRep_illegal hr hc]
    exact takeTrap_trapped _ _ _ _ ⟨htrap.thread, htrap.running, htrap.boundary⟩

end Sys2Proof.Machine
end

section
/-!
PROOFS. 05 R111, R119 to R121, R127, R129: vector compares and `pwhilelt`, predicate logic, conversions and `vquery` (O37).

The course of a vector instruction is said once (`vector_done`); what it writes is a number whose digits are the results of the elements
(`packDigits`), so that a bit or a field of it is one of those results.
-/
namespace Sys2Proof.Machine

/-! A vector instruction of a tile whose vector unit is awake (19 R402, R403) -/

/-- What issuing on an awake unit changes: the unit's own record and the cluster's queue of stalls; the thread in focus is as it was. -/
structure Woken (s u : State) : Prop extends Calm s u where
  own : u.me = s.me

theorem Woken.refl (s : State) : Woken s s := ⟨Calm.refl s, rfl⟩

theorem Woken.trans {s t u : State} (a : Woken s t) (b : Woken t u) : Woken s u := ⟨a.toCalm.trans b.toCalm, b.own.trans a.own⟩

theorem Woken.modCtl (s : State) (g : Nat) (f : TileCtl → TileCtl) (h : (f (s.tile g).c).reps = (s.tile g).c.reps) :
    Woken s (s.modTile g (fun t => t.modCtl f)) := ⟨Calm.modCtl s g f h, modCtl_thread s g f _ _⟩

theorem Woken.myTile_r {s u : State} (a : Woken s u) : u.myTile.r = s.myTile.r := by
  rw [State.myTile, a.focus, a.tregs]; rfl

theorem Woken.vN {s u : State} (a : Woken s u) (n : Nat) : u.vN n = s.vN n := by
  rw [State.vN, State.getV, a.myTile_r]; rfl

theorem Woken.pN {s u : State} (a : Woken s u) (n : Nat) : u.pN n = s.pN n := by
  rw [State.pN, a.myTile_r]; rfl

theorem Woken.getX {s u : State} (a : Woken s u) (n : Nat) : u.getX n = s.getX n := by
  rw [State.getX, a.own]; rfl

theorem Woken.thread0 {s u : State} (a : Woken s u) (h : s.focus.thread = 0) : u.focus.thread = 0 := by rw [a.focus, h]

theorem useUnit_woken (s : State) (g : Nat) (mat : Bool) : Woken s (s.useUnit g mat) := by
  cases mat <;> exact Woken.modCtl s g _ rfl

theorem endStall_woken (s : State) (g h : Nat) : Woken s (s.endStall g h) := by
  unfold State.endStall; split
  · exact Woken.trans ⟨Calm.modCluster s _ _, rfl⟩ (Woken.modCtl _ g _ rfl)
  · exact Woken.refl s

theorem wakeUnits_awake (s : State) (g h : Nat) (hw : s.warm g false = true) :
    ∃ u, s.wakeUnits g h true false = (u, true) ∧ Woken s u := by
  have ha : s.admitWake g h false = some s := if_pos hw
  unfold State.wakeUnits
  simp only [ha, if_true, Bool.false_eq_true, if_false]
  refine ⟨_, rfl, ?_⟩
  split
  · exact (endStall_woken s g h).trans (useUnit_woken _ g false)
  · exact endStall_woken s g h

theorem withUnits_awake (s : State) (body : State → State) (hw : s.warm s.focus.tile false = true) :
    ∃ u, s.withUnits false body = body u ∧ Woken s u := by
  obtain ⟨u, hu, wu⟩ := wakeUnits_awake s s.focus.tile s.focus.thread hw
  refine ⟨u.useUnit s.focus.tile false, ?_, wu.trans (useUnit_woken _ _ _)⟩
  unfold State.withUnits
  simp only [hu, if_true, Bool.false_eq_true, if_false]

/-- How a vector instruction goes: on an awake unit its body runs, on a state that differs in the unit's bookkeeping alone. -/
theorem vector_done {s : State} {i : Instr} {body : State → State} {r : Regs} {tr : TileRegs} {m : Memory} (h0 : s.focus.thread = 0)
    (hw : s.warm s.focus.tile false = true) (hi : isLanding i = false) (hb : ∀ u, Woken s u → Done u (body u) r tr m) :
    ∃ t, s.vector i body = .next t ∧ Done s t r tr m := by
  obtain ⟨u, hu, wu⟩ := withUnits_awake s body hw
  exact ⟨body u, (run_next s i _ (class0 s i h0 hi)).trans (congrArg _ hu), wu.toCalm.mid.toDone.then (hb u wu)⟩

/-! What a vector instruction writes -/

theorem Mid.putPN (s : State) (n v : Nat) : Mid s (s.putPN n v) s.me.r (s.myTile.r.setP n (BitVec.ofNat 64 v)) s.mem :=
  Mid.modTileRegs s _

/-- t0 writes a v register as it writes its tile's registers, and drops its own pending write of that register (01 R25). -/
theorem Mid.putV (s : State) (n : Nat) (v : VWord) (h0 : s.focus.thread = 0) :
    Mid s (s.putV n v) s.me.r (s.myTile.r.setV n v) s.mem := by
  have hme : (s.putV n v).me = s.me.modRun (·.dropPend true n) := by
    simp [State.me, State.putV, State.modMyTile, State.thread, Tile.putV, Tile.thread_modThread, h0]
  refine ⟨⟨rfl, by rw [hme]; rfl, fun g h hk => ?_, by simp [State.myTile, State.putV, State.modMyTile, Tile.putV], fun g hg => ?_,
    fun g => ?_, rfl, rfl, rfl⟩, by rw [hme]; rfl, fun hp => ?_, fun hc => by rw [hme]; exact hc⟩
  · simp only [State.thread, State.putV, State.modMyTile, State.tile_modTile]
    split
    · next hg =>
      have hh : 0 ≠ h := fun e => hk ⟨hg.symm, e.symm.trans h0.symm⟩
      subst hg
      simp [Tile.putV, Tile.thread_modThread, hh]
    · rfl
  · simp only [State.putV, State.modMyTile, State.tile_modTile, if_neg (Ne.symm hg)]
  · simp only [State.putV, State.modMyTile, State.tile_modTile]
    split
    · next hg => subst hg; rfl
    · rfl
  · rw [hme]; simp [Run.dropPend, hp]

theorem Mid.raiseFx (s : State) (f : Flags) (h0 : s.focus.thread = 0) :
    Mid s (s.raiseFx s.focus.tile f) (s.me.r.raiseFx f) s.myTile.r s.mem := by
  have e : s.raiseFx s.focus.tile f = s.modMe (fun t => t.modRegs (·.raiseFx f)) := by rw [State.raiseFx, State.modMe, h0]
  rw [e]
  exact Mid.modMe s _ rfl id id

/-- A result with flags: the flags are gathered and the instruction completes after the write. -/
theorem Mid.raise_retire {s u : State} {r : Regs} {tr : TileRegs} {m : Memory} (a : Mid s u r tr m) (f : Flags) (sb : Bool)
    (h0 : s.focus.thread = 0) (hs : s.settled sb) :
    Done s ((u.raiseFx s.focus.tile f).retire sb) ((r.raiseFx f).after s.me.run.rep) tr m := by
  have b := Mid.raiseFx u f (a.focus ▸ h0)
  rw [a.mine, a.mytile, a.mem, a.focus] at b
  exact (a.then b).retire sb hs

/-- A v register as the result. -/
theorem Mid.vDone {s u : State} {r : Regs} {tr : TileRegs} {m : Memory} (a : Mid s u r tr m) (sb : Bool) (vd : Nat) (x : Nat × Flags)
    (h0 : s.focus.thread = 0) (hs : s.settled sb) :
    Done s (u.vDone sb vd x) ((r.raiseFx x.2).after s.me.run.rep) (tr.setV vd (BitVec.ofNat 512 x.1)) m := by
  have b := Mid.putV u vd (BitVec.ofNat 512 x.1) (a.focus ▸ h0)
  rw [a.mine, a.mytile, a.mem] at b
  have d := (a.then b).raise_retire x.2 sb h0 hs
  rw [← a.focus] at d
  exact d

/-! A number from its digits -/

/-- The number whose digit `i` in base `B` is `d i`, for the `n` lowest digits. -/
def packDigits (n B : Nat) (d : Nat → Nat) : Nat := (List.range n).foldr (fun i a => a * B + d i) 0

theorem packDigits_eq_ofDigits (n B : Nat) (d : Nat → Nat) : packDigits n B d = Nat.ofDigits B ((List.range n).map d) := by
  simp [packDigits, Nat.ofDigits_eq_foldr, List.foldr_map, Nat.add_comm, Nat.mul_comm]

theorem packDigits_lt (n B : Nat) (d : Nat → Nat) (hB : 1 < B) (hd : ∀ i, d i < B) : packDigits n B d < B ^ n := by
  rw [packDigits_eq_ofDigits]
  simpa using Nat.ofDigits_lt_base_pow_length (l := (List.range n).map d) hB (by simp [hd])

theorem packDigits_digit (n B k : Nat) (d : Nat → Nat) (hd : ∀ i, d i < B) (hk : k < n) : packDigits n B d / B ^ k % B = d k := by
  have hB : 0 < B := Nat.zero_lt_of_lt (hd 0)
  rw [packDigits_eq_ofDigits, Nat.ofDigits_div_pow_eq_ofDigits_drop k hB _ (by simpa using fun i _ => hd i),
    List.drop_eq_getElem_cons (by simpa using hk), Nat.ofDigits_cons, Nat.add_mul_mod_self_left]
  simpa using Nat.mod_eq_of_lt (hd k)

/-! Bits of a predicate -/

theorem etBytes_pos (et : Nat) : 0 < etBytes et := by unfold etBytes; split <;> decide

/-- The elements of a tile fill its 64 bytes. -/
theorem etBytes_mul_count (et : Nat) : etBytes et * (64 / etBytes et) = 64 := by unfold etBytes; split <;> rfl

/-- The `b` bits of element `i` in the result of `predicatewise`. -/
def predDigit (b p old : Nat) (f : Nat → Bool) (i : Nat) : Nat :=
  if active p b i then (if f i then 2 ^ b - 1 else 0) else old / 2 ^ (b * i) % 2 ^ b

theorem predDigit_lt (b p old : Nat) (f : Nat → Bool) (i : Nat) : predDigit b p old f i < 2 ^ b := by
  have hB : 0 < 2 ^ b := Nat.two_pow_pos b
  unfold predDigit
  split
  · split
    · exact Nat.sub_lt hB Nat.one_pos
    · exact hB
  · exact Nat.mod_lt _ hB

theorem predicatewise_eq_packDigits (b p old : Nat) (f : Nat → Bool) :
    predicatewise b p old f = packDigits (64 / b) (2 ^ b) (predDigit b p old f) := rfl

theorem testBit_predDigit (b p old k m : Nat) (f : Nat → Bool) (hm : m < b) :
    (predDigit b p old f k).testBit m = if active p b k then f k else old.testBit (b * k + m) := by
  unfold predDigit
  split
  · cases f k <;> simp [Nat.testBit_two_pow_sub_one, hm]
  · rw [Nat.testBit_mod_two_pow, Nat.testBit_div_two_pow, Nat.add_comm]
    simp [hm]

theorem testBit_predicatewise (b p old j : Nat) (f : Nat → Bool) (hb : 0 < b) (hj : j < b * (64 / b)) :
    (predicatewise b p old f).testBit j = if active p b (j / b) then f (j / b) else old.testBit j := by
  have hm : j % b < b := Nat.mod_lt j hb
  have hdigit := packDigits_digit (64 / b) (2 ^ b) (j / b) _ (predDigit_lt b p old f) (Nat.div_lt_of_lt_mul hj)
  have hbit := testBit_predDigit b p old (j / b) (j % b) f hm
  rw [← hdigit, ← pow_mul, Nat.testBit_mod_two_pow, Nat.testBit_div_two_pow, Nat.mod_add_div, Nat.div_add_mod] at hbit
  simpa [predicatewise_eq_packDigits, hm] using hbit

theorem getLsbD_predicatewise (et p j : Nat) (old : Word64) (f : Nat → Bool) (hj : j < 64) :
    (BitVec.ofNat 64 (predicatewise (etBytes et) p old.toNat f)).getLsbD j =
      if active p (etBytes et) (j / etBytes et) then f (j / etBytes et) else old.getLsbD j := by
  rw [BitVec.getLsbD_ofNat, testBit_predicatewise _ _ _ _ _ (etBytes_pos et) (by rw [etBytes_mul_count]; exact hj), BitVec.testBit_toNat]
  simp [hj]

theorem testBit_complement (x : Word64) (j : Nat) (hj : j < 64) : (18446744073709551615 - x.toNat).testBit j = !x.getLsbD j := by
  have h : 18446744073709551615 - x.toNat = 2 ^ 64 - (x.toNat + 1) := by omega
  rw [h, Nat.testBit_two_pow_sub_succ x.isLt, BitVec.testBit_toNat]
  simp [hj]

theorem getLsbD_mergeBits (p old : Word64) (new j : Nat) (hj : j < 64) :
    (BitVec.ofNat 64 (mergeBits p.toNat old.toNat new)).getLsbD j = if active p.toNat 1 (j / 1) then new.testBit j else old.getLsbD j := by
  rw [BitVec.getLsbD_ofNat, mergeBits, Nat.testBit_or, Nat.testBit_and, Nat.testBit_and, testBit_complement p j hj, active, Nat.div_one,
    Nat.one_mul, BitVec.testBit_toNat, BitVec.testBit_toNat]
  cases p.getLsbD j <;> simp [hj]

/-! Fields of a converted register -/

/-- The `w` bits of element `i` in the result of `packResults`. -/
def packedDigit (w bs p old : Nat) (f : Nat → Nat) (i : Nat) : Nat :=
  if active p bs i then f i % 2 ^ w else old / 2 ^ (w * i) % 2 ^ w

theorem packedDigit_lt (w bs p old : Nat) (f : Nat → Nat) (i : Nat) : packedDigit w bs p old f i < 2 ^ w := by
  unfold packedDigit; split <;> exact Nat.mod_lt _ (Nat.two_pow_pos w)

theorem packResults_eq_packDigits (n w bs p old : Nat) (f : Nat → Nat) :
    packResults n w bs p old f = packDigits n (2 ^ w) (packedDigit w bs p old f) := rfl

theorem packResults_lt (n w bs p old : Nat) (f : Nat → Nat) (hw : 0 < w) : packResults n w bs p old f < 2 ^ (w * n) := by
  rw [pow_mul, packResults_eq_packDigits]
  exact packDigits_lt n _ _ (Nat.one_lt_two_pow hw.ne') (packedDigit_lt w bs p old f)

theorem packResults_field (n w bs p old k : Nat) (f : Nat → Nat) (hk : k < n) :
    packResults n w bs p old f / 2 ^ (w * k) % 2 ^ w = if active p bs k then f k % 2 ^ w else old / 2 ^ (w * k) % 2 ^ w := by
  rw [pow_mul, packResults_eq_packDigits, packDigits_digit n _ k _ (packedDigit_lt w bs p old f) hk, ← pow_mul]
  rfl

/-- Only the results of active elements matter. -/
theorem packResults_congr (n w bs p old : Nat) (f g : Nat → Nat) (h : ∀ k, k < n → active p bs k = true → f k = g k) :
    packResults n w bs p old f = packResults n w bs p old g := by
  refine List.foldr_ext _ _ _ fun k hk a => ?_
  by_cases hp : active p bs k
  · simp [hp, h k (List.mem_range.mp hk) hp]
  · simp [hp]

theorem vcvtDest_bits_pos (sub : Nat) : 0 < (vcvtDest sub).bits := by unfold vcvtDest; split <;> decide

/-- The results of a conversion fit in a v register (05 R119). -/
theorem bits_mul_vcvtCount_le (et w : Nat) : w * vcvtCount (64 / etBytes et) w ≤ 512 := by
  unfold vcvtCount
  split
  · calc w * min (64 / etBytes et) (512 / w) ≤ w * (512 / w) := Nat.mul_le_mul_left w (Nat.min_le_right _ _)
      _ ≤ 512 := Nat.mul_div_le 512 w
  · next hw =>
    calc w * (64 / etBytes et) ≤ 8 * 64 := Nat.mul_le_mul (by omega) (Nat.div_le_self _ _)

theorem toNat_ofNat_of_lt {x n m : Nat} (hx : x < 2 ^ n) (hn : n ≤ m) : (BitVec.ofNat m x).toNat = x := by
  rw [BitVec.toNat_ofNat, Nat.mod_eq_of_lt (hx.trans_le (Nat.pow_le_pow_right Nat.two_pos hn))]

theorem toNat_ofNat_packResults (et sub p old : Nat) (f : Nat → Nat) :
    let w := (vcvtDest sub).bits
    let n := vcvtCount (64 / etBytes et) w
    (BitVec.ofNat 512 (packResults n w (etBytes et) p old f)).toNat = packResults n w (etBytes et) p old f := by
  intro w n
  have hlt := packResults_lt n w (etBytes et) p old f (vcvtDest_bits_pos sub)
  exact toNat_ofNat_of_lt hlt (bits_mul_vcvtCount_le et w)

/-! The flags of the active elements (03 R57) -/

theorem Flags.or_none (a : Flags) : a.or Flags.none = a := by simp [Flags.or, Flags.none]

theorem Flags.none_or (a : Flags) : Flags.none.or a = a := by simp [Flags.or, Flags.none]

theorem Flags.or_assoc (a b c : Flags) : (a.or b).or c = a.or (b.or c) := by simp [Flags.or, Bool.or_assoc]

theorem foldl_or_flags {α : Type} (f : α → Flags) (l : List α) (acc : Flags) :
    l.foldl (fun a k => a.or (f k)) acc = acc.or (l.foldr (fun k a => (f k).or a) Flags.none) := by
  induction l generalizing acc with
  | nil => exact (Flags.or_none acc).symm
  | cons k l ih => rw [List.foldl_cons, ih, Flags.or_assoc, List.foldr_cons]

/-- Flags gathered element by element from the first are those of the active elements together. -/
theorem foldl_active_flags (n p b : Nat) (f : Nat → Flags) :
    (List.range n).foldl (fun a i => if active p b i then a.or (f i) else a) Flags.none = flagsOf n p b f := by
  rw [← List.foldl_filter, foldl_or_flags, Flags.none_or]
  rfl

/-! One draw for each active element, in ascending order (03 R62) -/

/-- A thread after `n` draws. -/
def Thread.drawn (t : Thread) (n : Nat) : Thread :=
  { t with r := { t.r with s0 := (draws n t.r.s0 t.r.s1).2.1, s1 := (draws n t.r.s0 t.r.s1).2.2 } }

/-- The outputs of a thread's next `n` draws. -/
def Thread.outputs (t : Thread) (n : Nat) : List Word64 := (draws n t.r.s0 t.r.s1).1

theorem Thread.outputs_succ (t : Thread) (n : Nat) : t.outputs (n + 1) = t.draw.1 :: t.draw.2.outputs n := rfl

theorem Thread.drawn_succ (t : Thread) (n : Nat) : t.drawn (n + 1) = t.draw.2.drawn n := rfl

theorem Thread.length_outputs (t : Thread) (n : Nat) : (t.outputs n).length = n := by
  induction n generalizing t with
  | zero => rfl
  | succ n ih => rw [t.outputs_succ, List.length_cons, ih]

/-- An active element of a stochastic conversion `g`: its draw, its result and its flags. -/
def stochasticStep (g : Word64 → Nat → Nat × Flags) (x : Tab Nat × Flags × Thread) (k : Nat) : Tab Nat × Flags × Thread :=
  (x.1 ++ [(k, (g x.2.2.draw.1 k).1)], x.2.1.or (g x.2.2.draw.1 k).2, x.2.2.draw.2)

/-- The elements take the outputs of the draws one by one. -/
theorem foldl_stochasticStep (g : Word64 → Nat → Nat × Flags) (l : List Nat) (rs : Tab Nat) (fl : Flags) (t : Thread) :
    l.foldl (stochasticStep g) (rs, fl, t) =
      (rs ++ (l.zip (t.outputs l.length)).map (fun x => (x.1, (g x.2 x.1).1)),
        fl.or ((l.zip (t.outputs l.length)).foldr (fun x a => (g x.2 x.1).2.or a) Flags.none), t.drawn l.length) := by
  induction l generalizing rs fl t with
  | nil => simp [Flags.or_none]; rfl
  | cons k l ih =>
    rw [List.foldl_cons, stochasticStep, ih, List.length_cons, t.outputs_succ, t.drawn_succ]
    simp [Flags.or_assoc]

/-- In an ascending list each element's companion stands where as many elements precede it as are smaller. -/
theorem zip_eq_map_rank {α : Type} (l : List Nat) (ws : List α) (d : α) (hl : l.Pairwise (· < ·)) (hn : ws.length = l.length) :
    l.zip ws = l.map (fun k => (k, ws.getD (l.takeWhile (fun j => decide (j < k))).length d)) := by
  induction l generalizing ws with
  | nil => rfl
  | cons k l ih =>
    obtain ⟨hk, hl⟩ := List.pairwise_cons.mp hl
    obtain _ | ⟨w, ws⟩ := ws
    · cases hn
    · rw [List.zip_cons_cons, ih ws hl (Nat.succ.inj hn), List.map_cons]
      congr 1
      · simp
      · refine List.map_congr_left fun j hj => ?_
        simp [hk j hj]

theorem Tab.look_map_mem {α : Type} (l : List Nat) (f : Nat → α) (k : Nat) (d : α) (hk : k ∈ l) :
    Tab.look (l.map (fun k => (k, f k))) k d = f k := by
  induction l with
  | nil => cases hk
  | cons j l ih =>
    by_cases hj : j = k
    · simp [Tab.look, hj]
    · simp [Tab.look, hj, ih ((List.mem_cons.mp hk).resolve_left (Ne.symm hj))]

/-- The output that element `k` takes: that of the draw before which as many active elements have drawn as precede `k`. -/
def Thread.outputOf (t : Thread) (act : List Nat) (k : Nat) : Word64 :=
  (t.outputs act.length).getD (act.takeWhile (fun j => decide (j < k))).length 0

/-- A stochastic conversion of elements in ascending order. -/
theorem foldl_stochasticStep_ascending (g : Word64 → Nat → Nat × Flags) (act : List Nat) (t : Thread) (ha : act.Pairwise (· < ·)) :
    act.foldl (stochasticStep g) ([], Flags.none, t) =
      (act.map (fun k => (k, (g (t.outputOf act k) k).1)), act.foldr (fun k a => (g (t.outputOf act k) k).2.or a) Flags.none,
        t.drawn act.length) := by
  rw [foldl_stochasticStep, zip_eq_map_rank act _ 0 ha (t.length_outputs _), List.map_map, List.foldr_map, List.nil_append, Flags.none_or]
  rfl

/-! Compares, `pwhilelt` and the predicate logic (05 R111, R127, R129) -/

/-- The compare of element `k`. -/
def State.vcmpAt (s : State) (c : CV) (k : Nat) : Bool × Flags :=
  vcmpElem c.et (c.fd / 8) (elem (s.vN c.f1) (etBytes c.et) k) (elem (s.vN c.f2) (etBytes c.et) k)

theorem doVcmp_done (c : CV) (s : State) (h0 : s.focus.thread = 0) (hs : s.settled c.s) :
    Done s (doVcmp c s)
      ((s.me.r.raiseFx (flagsOf (64 / etBytes c.et) (s.pN c.pg) (etBytes c.et) (fun k => (s.vcmpAt c k).2))).after s.me.run.rep)
      (s.myTile.r.setP (c.fd % 8)
        (BitVec.ofNat 64 (predicatewise (etBytes c.et) (s.pN c.pg) (s.pN (c.fd % 8)) (fun k => (s.vcmpAt c k).1)))) s.mem := by
  unfold doVcmp
  dsimp only
  rw [foldl_active_flags]
  exact (Mid.putPN s _ _).raise_retire _ c.s h0 hs

/-- `x1 + e < x2` of `pwhilelt` for element `k`, whose architectural number is `e`. -/
def State.pwhileltAt (s : State) (o : VU) (k : Nat) : Bool :=
  decide ((s.getX o.f1).toInt + ((s.me.run.gather.index * (64 / etBytes o.et) + k : Nat) : Int) < (s.getX (o.f1 + 1)).toInt)

theorem doPwhilelt_done (o : VU) (s : State) (hs : s.settled o.s) :
    Done s (doPwhilelt o s) (s.me.r.after s.me.run.rep)
      (s.myTile.r.setP (o.fd % 8)
        (BitVec.ofNat 64 (predicatewise (etBytes o.et) (s.pN o.pg) (s.pN (o.fd % 8)) (fun k => s.pwhileltAt o k)))) s.mem :=
  (Mid.putPN s _ _).retire o.s hs

theorem doPLogic_done (o : VU) (op : Nat → Nat → Nat) (s : State) (hs : s.settled o.s) :
    Done s (doPLogic o op s) (s.me.r.after s.me.run.rep)
      (s.myTile.r.setP (o.fd % 8)
        (BitVec.ofNat 64 (mergeBits (s.pN o.pg) (s.pN (o.fd % 8)) (op (s.pN (o.f1 % 8)) (s.pN (o.f1 / 8)))))) s.mem :=
  (Mid.putPN s _ _).retire o.s hs

/-- The instruction completes with the registers `r` of its thread, and bit `j` of `P[pd]` is `f` of its element where that is active under
`p`, and as it was elsewhere (05 R111, R127). -/
def State.writesPred (s : State) (i : Instr) (r : Regs) (pd p b : Nat) (f : Nat → Bool) : Prop :=
  ∃ t, ∃ w : Word64, exec i s = .next t ∧ Done s t (r.after s.me.run.rep) (s.myTile.r.setP pd w) s.mem ∧
    ∀ j, j < 64 → w.getLsbD j = if active p b (j / b) then f (j / b) else (s.myTile.r.getP pd).getLsbD j

theorem vcmp_writesPred {s : State} {c : CV} (h0 : s.focus.thread = 0) (hw : s.warm s.focus.tile false = true) (hs : s.settled c.s) :
    s.writesPred (.vcmp c) (s.me.r.raiseFx (flagsOf (64 / etBytes c.et) (s.pN c.pg) (etBytes c.et) (fun k => (s.vcmpAt c k).2))) (c.fd % 8)
      (s.pN c.pg) (etBytes c.et) (fun k => (s.vcmpAt c k).1) := by
  obtain ⟨t, ht, hd⟩ := vector_done h0 hw (i := .vcmp c) rfl fun u hu => by
    simpa only [State.vcmpAt, hu.vN, hu.pN, hu.own, hu.myTile_r, hu.mem] using
      doVcmp_done c u (hu.thread0 h0) (hu.toCalm.mid.settled hs)
  exact ⟨t, _, ht, hd, fun j hj => getLsbD_predicatewise _ _ j _ _ hj⟩

theorem pwhilelt_writesPred {s : State} {o : VU} (h0 : s.focus.thread = 0) (hw : s.warm s.focus.tile false = true) (hs : s.settled o.s) :
    s.writesPred (.pwhilelt o) s.me.r (o.fd % 8) (s.pN o.pg) (etBytes o.et) (s.pwhileltAt o) := by
  obtain ⟨t, ht, hd⟩ := vector_done h0 hw (i := .pwhilelt o) rfl fun u hu => by
    simpa only [State.pwhileltAt, hu.getX, hu.pN, hu.own, hu.myTile_r, hu.mem] using doPwhilelt_done o u (hu.toCalm.mid.settled hs)
  exact ⟨t, _, ht, hd, fun j hj => getLsbD_predicatewise _ _ j _ _ hj⟩

/-- An instruction of the predicate logic whose operation `op` has the bits `f`. -/
theorem pLogic_writesPred {s : State} {o : VU} {i : Instr} {f : Nat → Bool} (op : Nat → Nat → Nat) (h0 : s.focus.thread = 0)
    (hw : s.warm s.focus.tile false = true) (hs : s.settled o.s) (hi : isLanding i = false)
    (hx : exec i s = s.vector i (doPLogic o op))
    (hf : ∀ j, j < 64 → (op (s.pN (o.f1 % 8)) (s.pN (o.f1 / 8))).testBit j = f j) :
    s.writesPred i s.me.r (o.fd % 8) (s.pN o.pg) 1 f := by
  obtain ⟨t, ht, hd⟩ := vector_done h0 hw hi fun u hu => by
    simpa only [hu.pN, hu.own, hu.myTile_r, hu.mem] using doPLogic_done o op u (hu.toCalm.mid.settled hs)
  refine ⟨t, _, hx.trans ht, hd, fun j hj => ?_⟩
  rw [State.pN, State.pN, getLsbD_mergeBits _ _ _ j hj, hf j hj, Nat.div_one]

theorem testBit_pN (s : State) (n j : Nat) : (s.pN n).testBit j = (s.myTile.r.getP n).getLsbD j := BitVec.testBit_toNat _

/-! Conversions (05 R119 to R121) -/

/-- How many elements the conversion `sub` takes from a register of element type `et` (05 R119). -/
def vcvtLen (sub et : Nat) : Nat := vcvtCount (64 / etBytes et) (vcvtDest sub).bits

/-- The active elements among those converted, in ascending order. -/
def State.vcvtActive (s : State) (sub : Nat) (o : VU) : List Nat :=
  (List.range (vcvtLen sub o.et)).filter (active (s.pN o.pg) (etBytes o.et))

/-- The register that a conversion writes. -/
def State.converted (s : State) (sub : Nat) (o : VU) (f : Nat → Nat × Flags) : VWord :=
  BitVec.ofNat 512 (packResults (vcvtLen sub o.et) (vcvtDest sub).bits (etBytes o.et) (s.pN o.pg) (s.vN o.fd) (fun k => (f k).1))

/-- The flags that a conversion raises. -/
def State.vcvtFlags (s : State) (sub : Nat) (o : VU) (f : Nat → Nat × Flags) : Flags :=
  flagsOf (vcvtLen sub o.et) (s.pN o.pg) (etBytes o.et) (fun k => (f k).2)

theorem converted_packed (s : State) (sub : Nat) (o : VU) (f : Nat → Nat × Flags) :
    (s.converted sub o f).toNat < 2 ^ ((vcvtDest sub).bits * vcvtLen sub o.et) ∧ ∀ k, k < vcvtLen sub o.et →
      (s.converted sub o f).toNat / 2 ^ ((vcvtDest sub).bits * k) % 2 ^ (vcvtDest sub).bits =
        if active (s.pN o.pg) (etBytes o.et) k then (f k).1 % 2 ^ (vcvtDest sub).bits
        else s.vN o.fd / 2 ^ ((vcvtDest sub).bits * k) % 2 ^ (vcvtDest sub).bits := by
  rw [State.converted, vcvtLen, toNat_ofNat_packResults]
  exact ⟨packResults_lt _ _ _ _ _ _ (vcvtDest_bits_pos sub), fun k hk => packResults_field _ _ _ _ _ k _ hk⟩

/-- The conversion of element `k`. -/
def State.vcvtAt (s : State) (sub : Nat) (o : VU) (k : Nat) : Nat × Flags :=
  vcvtElem o.et (vcvtDest sub) (elem (s.vN o.f1) (etBytes o.et) k)

theorem doVcvt_done (sub : Nat) (o : VU) (s : State) (h0 : s.focus.thread = 0) (hs : s.settled o.s) :
    Done s (doVcvt sub o s) ((s.me.r.raiseFx (s.vcvtFlags sub o (s.vcvtAt sub o))).after s.me.run.rep)
      (s.myTile.r.setV o.fd (s.converted sub o (s.vcvtAt sub o))) s.mem := by
  unfold doVcvt
  dsimp only
  rw [foldl_active_flags]
  exact (Mid.refl s).vDone o.s o.fd _ h0 hs

/-- The stochastic conversion of element `k` with an output of the generator. -/
def State.vcvtsrWith (s : State) (sub : Nat) (o : VU) (out : Word64) (k : Nat) : Nat × Flags :=
  vcvtsrElem sub o.et out (elem (s.vN o.f1) (etBytes o.et) k)

/-- The stochastic conversion of element `k`, with the output that is its own. -/
def State.vcvtsrAt (s : State) (sub : Nat) (o : VU) (k : Nat) : Nat × Flags :=
  s.vcvtsrWith sub o (s.me.outputOf (s.vcvtActive sub o) k) k

theorem doVcvtsr_eq (sub : Nat) (o : VU) (s : State) :
    doVcvtsr sub o s =
      let x := (s.vcvtActive sub o).foldl (stochasticStep (s.vcvtsrWith sub o)) ([], Flags.none, s.me)
      (s.modMe (fun _ => x.2.2)).vDone o.s o.fd (packResults (vcvtLen sub o.et) (vcvtDest sub).bits (etBytes o.et) (s.pN o.pg)
        (s.vN o.fd) (fun k => x.1.look k 0), x.2.1) := by
  rw [State.vcvtActive, List.foldl_filter]
  rfl

theorem doVcvtsr_done (sub : Nat) (o : VU) (s : State) (h0 : s.focus.thread = 0) (hs : s.settled o.s) :
    Done s (doVcvtsr sub o s)
      (((s.me.drawn (s.vcvtActive sub o).length).r.raiseFx (s.vcvtFlags sub o (s.vcvtsrAt sub o))).after s.me.run.rep)
      (s.myTile.r.setV o.fd (s.converted sub o (s.vcvtsrAt sub o))) s.mem := by
  have ha : (s.vcvtActive sub o).Pairwise (· < ·) := List.Pairwise.filter _ List.pairwise_lt_range
  rw [doVcvtsr_eq, foldl_stochasticStep_ascending _ _ _ ha]
  dsimp only
  rw [packResults_congr _ _ _ _ _ _ (fun k => (s.vcvtsrAt sub o k).1) fun k hk hp =>
    Tab.look_map_mem _ _ k 0 (List.mem_filter.mpr ⟨List.mem_range.mpr hk, hp⟩)]
  exact (Mid.modMe s (fun _ => s.me.drawn (s.vcvtActive sub o).length) rfl id id).vDone o.s o.fd _ h0 hs

theorem vcvt_done {s : State} {o : VU} (sub : Nat) (h0 : s.focus.thread = 0) (hw : s.warm s.focus.tile false = true)
    (hs : s.settled o.s) :
    ∃ t, exec (.vcvt sub o) s = .next t ∧ Done s t ((s.me.r.raiseFx (s.vcvtFlags sub o (s.vcvtAt sub o))).after s.me.run.rep)
      (s.myTile.r.setV o.fd (s.converted sub o (s.vcvtAt sub o))) s.mem :=
  vector_done (i := .vcvt sub o) h0 hw rfl fun u hu => by
    simpa only [State.vcvtFlags, State.converted, State.vcvtAt, hu.vN, hu.pN, hu.own, hu.myTile_r, hu.mem] using
      doVcvt_done sub o u (hu.thread0 h0) (hu.toCalm.mid.settled hs)

theorem vcvtsr_done {s : State} {o : VU} (sub : Nat) (h0 : s.focus.thread = 0) (hw : s.warm s.focus.tile false = true)
    (hs : s.settled o.s) :
    ∃ t, exec (.vcvtsr sub o) s = .next t ∧
      Done s t (((s.me.drawn (s.vcvtActive sub o).length).r.raiseFx (s.vcvtFlags sub o (s.vcvtsrAt sub o))).after s.me.run.rep)
        (s.myTile.r.setV o.fd (s.converted sub o (s.vcvtsrAt sub o))) s.mem :=
  vector_done (i := .vcvtsr sub o) h0 hw rfl fun u hu => by
    simpa only [State.vcvtFlags, State.converted, State.vcvtsrAt, State.vcvtsrWith, State.vcvtActive, hu.vN, hu.pN, hu.own, hu.myTile_r,
      hu.mem] using doVcvtsr_done sub o u (hu.thread0 h0) (hu.toCalm.mid.settled hs)

/-! The length of the vectors (05 R97) -/

theorem vquery_done {s : State} {o : VU} (h0 : s.focus.thread = 0) (hw : s.warm s.focus.tile false = true) (hs : s.settled o.s) :
    ∃ t, exec (.vquery o) s = .next t ∧
      Done s t ((s.me.r.setX o.fd (BitVec.ofNat 64 (512 * s.me.run.gather.size))).after s.me.run.rep) s.myTile.r s.mem :=
  vector_done (i := .vquery o) h0 hw rfl fun u hu => by
    simpa only [State.putXn, State.gatherSize, hu.own, hu.myTile_r, hu.mem] using
      (Mid.putX u o.fd (BitVec.ofNat 64 (512 * u.gatherSize))).retire o.s (hu.toCalm.mid.settled hs)

/-- Settles O37: each instruction's course is `vector_done`; what it writes is read off the digits of `predicatewise`, `mergeBits` and
`packResults`, and the draws of a stochastic conversion off its fold. -/
theorem vectorResultsOfOtherShapes : Obligations.VectorResultsOfOtherShapes := by
  intro s c o sub h0 hw r tr rep pbits
  refine ⟨fun hs => vcmp_writesPred h0 hw hs, fun hs => pwhilelt_writesPred h0 hw hs, fun hs => ⟨?_, ?_, ?_, ?_⟩, fun hs => ⟨?_, ?_⟩,
    fun hs => vquery_done h0 hw hs⟩
  · exact pLogic_writesPred (i := .pand o) (fun a b => a &&& b) h0 hw hs rfl rfl fun j _ => by rw [Nat.testBit_and, testBit_pN, testBit_pN]
  · exact pLogic_writesPred (i := .por o) (fun a b => a ||| b) h0 hw hs rfl rfl fun j _ => by rw [Nat.testBit_or, testBit_pN, testBit_pN]
  · exact pLogic_writesPred (i := .pxor o) (fun a b => a ^^^ b) h0 hw hs rfl rfl fun j _ => by rw [Nat.testBit_xor, testBit_pN, testBit_pN]
  · exact pLogic_writesPred (i := .pnot o) (fun a _ => 18446744073709551615 - a) h0 hw hs rfl rfl fun j hj => testBit_complement _ j hj
  · obtain ⟨t, ht, hd⟩ := vcvt_done sub h0 hw hs
    exact ⟨t, _, ht, converted_packed s sub o (s.vcvtAt sub o), hd⟩
  · obtain ⟨t, ht, hd⟩ := vcvtsr_done sub h0 hw hs
    exact ⟨t, _, ht, converted_packed s sub o (s.vcvtsrAt sub o), hd⟩

end Sys2Proof.Machine
end
